-- ==== Sys2Proof/Word.lean ====
section
/-!
DEFINITION. The two word types of the core.

Every register the spec shifts, masks or compares as a byte or a 16-bit word is one of these.
Bit-field and byte-order helpers are in Sys2Proof/Machine/Operands.lean.
-/

namespace Sys2Proof

/-- A byte: 8-bit unsigned integer (00_scope.md, section 5). -/
abbrev Byte := BitVec 8

/-- u16: 16-bit unsigned integer (00_scope.md, section 5). -/
abbrev Word := BitVec 16

end Sys2Proof
end

