-- ==== Sys2Proof/Machine/Operands.lean ====
section
/-!
DEFINITION. Operand fields: the two bytes of a 16-bit field, their order on the wire, and the
big-endian byte counts of requests. The core has no other operand forms: no request names a
register or an address (R24, R58).
-/

namespace Sys2Proof

/-- Bits [15:8]: `header_hi`, `trailer_hi` and the other high bytes (R50). -/
def hi (v : Word) : Byte := v.extractLsb' 8 8

/-- Bits [7:0]: `header_lo`, `trailer_lo` and the other low bytes (R50). -/
def lo (v : Word) : Byte := v.extractLsb' 0 8

/-- The 16-bit value of two bytes, high byte first: `(first_byte << 8) | second_byte` (R37, R48). -/
def join (h l : Byte) : Word := h ++ l

/-- `be16(v)`: the 2-byte sequence `[v[15:8], v[7:0]]` (00_scope.md section 5, R34). -/
def be16 (v : Word) : List Byte := [hi v, lo v]

/-- Write bits [15:8] of a register and keep bits [7:0]: `r[15:8] <- b` (R86, R90). -/
def setHi (r : Word) (b : Byte) : Word := join b (lo r)

/-- Write bits [7:0] of a register and keep bits [15:8]: `r[7:0] <- b` (R87, R91). -/
def setLo (r : Word) (b : Byte) : Word := join (hi r) b

/-- Byte k of a natural number, byte 0 the least significant. -/
def byteOf (k n : Nat) : Byte := BitVec.ofNat 8 (n / 256 ^ k)

/-- A 16-bit count, big-endian: the count field of an ENCODE request (R58, R61). -/
def count16 (n : Nat) : List Byte := [byteOf 1 n, byteOf 0 n]

/-- A 32-bit count, big-endian: the count field of a CHECKSUM request and of the byte form of
`TxFrame` (R62, R63). -/
def count32 (n : Nat) : List Byte := [byteOf 3 n, byteOf 2 n, byteOf 1 n, byteOf 0 n]

/-- The value of a big-endian byte count, first byte most significant (R58). -/
def countValue (bytes : List Byte) : Nat := bytes.foldl (fun n b => n * 256 + b.toNat) 0

end Sys2Proof
end

