-- ==== Sys2Proof/Syntax.lean ====
section
/-!
DEFINITION. The operations of the core as syntax: one constructor for every row of
spec/opcode_table.json. The core's "instructions" are its four operations (R2); the table gives FEED
ten further rows, one for each decoder state, whose words are FEED's own (R57, R60: the state is "not a
request bit").
-/

namespace Sys2Proof

/-- One operation request, operands included (R58: operands are immediate bytes). -/
inductive Instr where
  /-- RESET: force the decoder context back to its initial state (R104). -/
  | reset
  /-- FEED b: give the decoder one received byte (R82). -/
  | feed (b : Byte)
  /-- FEED.WAIT_HEADER_1: the FEED row of that decoder state (R84). -/
  | feedWaitHeader1 (b : Byte)
  /-- FEED.WAIT_HEADER_2 (R85). -/
  | feedWaitHeader2 (b : Byte)
  /-- FEED.WAIT_LENGTH_HI (R86). -/
  | feedWaitLengthHi (b : Byte)
  /-- FEED.WAIT_LENGTH_LO (R87). -/
  | feedWaitLengthLo (b : Byte)
  /-- FEED.WAIT_CMD (R88). -/
  | feedWaitCmd (b : Byte)
  /-- FEED.READ_DATA (R89). -/
  | feedReadData (b : Byte)
  /-- FEED.WAIT_CRC_1 (R90). -/
  | feedWaitCrc1 (b : Byte)
  /-- FEED.WAIT_CRC_2 (R91). -/
  | feedWaitCrc2 (b : Byte)
  /-- FEED.WAIT_END_1 (R92). -/
  | feedWaitEnd1 (b : Byte)
  /-- FEED.WAIT_END_2 (R93). -/
  | feedWaitEnd2 (b : Byte)
  /-- ENCODE c, p: build one frame from a command and a payload (R76). -/
  | encode (c : Byte) (p : List Byte)
  /-- CHECKSUM d: the checksum of a byte sequence (R74). -/
  | checksum (d : List Byte)
  deriving DecidableEq, Repr

end Sys2Proof
end

