-- ==== Sys2Proof/WellFormed.lean ====
section
/-!
DEFINITION. Which operations a request can carry: the byte counts must fit their count fields.
-/

namespace Sys2Proof

/-- The operands fit the request format: an ENCODE count is 16 bits wide, 0..65535 (R61), a CHECKSUM
count 32 bits, 0..2^32-1 (R62). Every other operand is one byte, any value (R59, R60). A payload
longer than `MAX_PAYLOAD` is well formed: ENCODE answers it with PayloadTooLong (R61). -/
def Instr.wellFormed : Instr → Bool
  | .reset => true
  | .feed _ => true
  | .feedWaitHeader1 _ => true
  | .feedWaitHeader2 _ => true
  | .feedWaitLengthHi _ => true
  | .feedWaitLengthLo _ => true
  | .feedWaitCmd _ => true
  | .feedReadData _ => true
  | .feedWaitCrc1 _ => true
  | .feedWaitCrc2 _ => true
  | .feedWaitEnd1 _ => true
  | .feedWaitEnd2 _ => true
  | .encode _ p => decide (p.length ≤ 65535)
  | .checksum d => decide (d.length ≤ 4294967295)

end Sys2Proof
end

