-- ==== Sys2Proof/Decode.lean ====
section
/-!
DEFINITION. Requests as bytes: the decoder, total on any byte sequence and rejecting by name, and after
it the encoder, both from 30_encoding.md part 3 (R58 to R65).
-/

namespace Sys2Proof

/-- A request is a byte sequence; byte 0 is the selector OPC (R58). -/
abbrev Request := List Byte

/-- Why a byte sequence is no request. Every one of these is answered `Refused` (R64, R65); the
distinction is the model's own and no host can observe it. -/
inductive DecodeError where
  /-- No selector: the empty byte sequence (R65, 95_test_vectors.md section 2.5). -/
  | noSelector
  /-- A selector in 0x04..0xFF (R64). -/
  | reservedSelector (opc : Byte)
  /-- The byte count is not what the selector and the counts require (R65). -/
  | malformed (opc : Byte)
  deriving DecidableEq, Repr

/-- Selector of RESET (R59). -/
def opcReset : Byte := 0x00#8
/-- Selector of FEED (R60). -/
def opcFeed : Byte := 0x01#8
/-- Selector of ENCODE (R61). -/
def opcEncode : Byte := 0x02#8
/-- Selector of CHECKSUM (R62). -/
def opcChecksum : Byte := 0x03#8

/-- The bytes after the selector of a RESET request: none (R59). -/
def decodeReset : List Byte → Except DecodeError Instr
  | [] => .ok .reset
  | _ => .error (.malformed opcReset)

/-- The bytes after the selector of a FEED request: the data byte (R60). -/
def decodeFeed : List Byte → Except DecodeError Instr
  | [b] => .ok (.feed b)
  | _ => .error (.malformed opcFeed)

/-- The bytes after the selector of an ENCODE request: command, 16-bit count, that many payload
bytes (R61). -/
def decodeEncode : List Byte → Except DecodeError Instr
  | c :: n1 :: n0 :: p =>
    if p.length = countValue [n1, n0] then .ok (.encode c p) else .error (.malformed opcEncode)
  | _ => .error (.malformed opcEncode)

/-- The bytes after the selector of a CHECKSUM request: 32-bit count, that many data bytes (R62). -/
def decodeChecksum : List Byte → Except DecodeError Instr
  | n3 :: n2 :: n1 :: n0 :: d =>
    if d.length = countValue [n3, n2, n1, n0] then .ok (.checksum d)
    else .error (.malformed opcChecksum)
  | _ => .error (.malformed opcChecksum)

/-- The request decoder (R58, R64, R65). It reads the words of FEED as `feed`: the ten FEED.<state>
rows of the opcode table have the same words, and the decoder state that tells them apart is not a
request bit (R57), so it is `execFeed` that selects the row (R82). -/
def decode : Request → Except DecodeError Instr
  | [] => .error .noSelector
  | opc :: rest =>
    if opc = opcReset then decodeReset rest
    else if opc = opcFeed then decodeFeed rest
    else if opc = opcEncode then decodeEncode rest
    else if opc = opcChecksum then decodeChecksum rest
    else .error (.reservedSelector opc)

/-- The request of a FEED (R60). -/
def feedRequest (b : Byte) : Request := [opcFeed, b]

/-- The request encoder: the bytes of a well-formed operation (R59 to R62). A FEED.<state> row is
written as the FEED it is a row of. -/
def encode : Instr → Request
  | .reset => [opcReset]
  | .feed b => feedRequest b
  | .feedWaitHeader1 b => feedRequest b
  | .feedWaitHeader2 b => feedRequest b
  | .feedWaitLengthHi b => feedRequest b
  | .feedWaitLengthLo b => feedRequest b
  | .feedWaitCmd b => feedRequest b
  | .feedReadData b => feedRequest b
  | .feedWaitCrc1 b => feedRequest b
  | .feedWaitCrc2 b => feedRequest b
  | .feedWaitEnd1 b => feedRequest b
  | .feedWaitEnd2 b => feedRequest b
  | .encode c p => opcEncode :: c :: (count16 p.length ++ p)
  | .checksum d => opcChecksum :: (count32 d.length ++ d)

/-- The operation a request of this instruction asks for: a FEED.<state> row is a FEED (R57, R60, R82),
everything else is itself. -/
def Instr.requestForm : Instr → Instr
  | .reset => .reset
  | .feed b => .feed b
  | .feedWaitHeader1 b => .feed b
  | .feedWaitHeader2 b => .feed b
  | .feedWaitLengthHi b => .feed b
  | .feedWaitLengthLo b => .feed b
  | .feedWaitCmd b => .feed b
  | .feedReadData b => .feed b
  | .feedWaitCrc1 b => .feed b
  | .feedWaitCrc2 b => .feed b
  | .feedWaitEnd1 b => .feed b
  | .feedWaitEnd2 b => .feed b
  | .encode c p => .encode c p
  | .checksum d => .checksum d

/-- How many bytes a request has, fixed by its bytes 0 to 4 (R65): 1 for RESET, 2 for FEED, 4 + n for
ENCODE, 5 + n for CHECKSUM; none for a reserved selector or where the count field is cut short. -/
def requestLength : Request → Option Nat
  | [] => none
  | opc :: rest =>
    if opc = opcReset then some 1
    else if opc = opcFeed then some 2
    else if opc = opcEncode then
      match rest with
      | _ :: n1 :: n0 :: _ => some (4 + countValue [n1, n0])
      | _ => none
    else if opc = opcChecksum then
      match rest with
      | n3 :: n2 :: n1 :: n0 :: _ => some (5 + countValue [n3, n2, n1, n0])
      | _ => none
    else none

/-- The bytes of a word as spec/opcode_table.json numbers its bits. A row of one 16-bit word (FEED, match
0x0100) has OPC in bits [15:8] and the data byte in bits [7:0] (R60). Every other row is numbered in
bytes from its first one: byte 0 is bits [7:0]. -/
def tableBytes (nbits w : Nat) : List Byte :=
  if nbits = 16 then count16 w else (List.range (nbits / 8)).map fun k => byteOf k w

/-- Operand bytes of zeros up to the length the request's own bytes call for. -/
def completeRequest (bytes : List Byte) : Request :=
  match requestLength (bytes ++ List.replicate 4 0) with
  | some n => bytes ++ List.replicate (n - bytes.length) 0
  | none => bytes

/-- The request whose word the opcode table numbers as w. -/
def tableRequest (nbits w : Nat) : Request := completeRequest (tableBytes nbits w)

/-- What the decoder reads from an opcode-table word; none where it rejects it. -/
def decodeTableWord (nbits w : Nat) : Option Instr :=
  match decode (tableRequest nbits w) with
  | .ok i => some i
  | .error _ => none

end Sys2Proof
end

