-- ==== Sys2Proof/Machine/Crc.lean ====
section
/-!
DEFINITION. The CRC algorithm of the checksum engine (40_checksum.md, R69, R70). The encoder, the decoder
and the CHECKSUM operation all use this one (R73).
-/

namespace Sys2Proof.Machine

/-- The initial accumulator, 0xFFFF (R70). -/
def crcInit : Word := 0xFFFF#16

/-- The polynomial, 0x1021 (R69). -/
def crcPoly : Word := 0x1021#16

/-- One round (R69): bit 15 is tested before the shift; every result is truncated to 16 bits. -/
def crcRound (acc : Word) : Word :=
  if acc.getLsbD 15 then (acc <<< 1) ^^^ crcPoly else acc <<< 1

/-- `n` rounds. -/
def crcRounds : Nat → Word → Word
  | 0, acc => acc
  | n + 1, acc => crcRounds n (crcRound acc)

/-- `CRC_STEP(acc, b)` (R69): the byte is XORed into bits [15:8], then 8 rounds run. -/
def crcStep (acc : Word) (b : Byte) : Word :=
  crcRounds 8 (acc ^^^ (b.setWidth 16 <<< 8))

/-- `checksum(data)` (R70): the left fold of `CRC_STEP` from 0xFFFF. No final XOR, no reflection. -/
def checksum (data : List Byte) : Word := data.foldl crcStep crcInit

end Sys2Proof.Machine
end

