-- ==== Sys2Proof/Config.lean ====
section
/-!
DEFINITION. What one core is constructed with: the four configuration parameters of 00_scope.md
section 4, their legal range and their defaults. There is no free value in this model: every value
the spec leaves open is a construction parameter, or a buffer byte that holds no value until it
is written (notes/assumptions/2.md).
-/

namespace Sys2Proof

/-- The configuration a host asks for at construction (R4, R5, R6, R7). `maxPayload` is an unbounded
natural number here, because construction must be able to refuse one that is too large. -/
structure Params where
  /-- `HEADER_MAGIC`, any 16-bit value (R4). -/
  header : Word
  /-- `TRAILER_MAGIC`, any 16-bit value (R4). -/
  trailer : Word
  /-- `MAX_PAYLOAD`, legal range 0..65534 (R5). -/
  maxPayload : Nat
  /-- `CHECKSUM_ENABLED`, no default (R6). -/
  checksumEnabled : Bool
  deriving DecidableEq, Repr

namespace Config

/-- Default `HEADER_MAGIC` (R4). -/
def defaultHeader : Word := 0xAA55#16

/-- Default `TRAILER_MAGIC` (R4). -/
def defaultTrailer : Word := 0x55AA#16

/-- Default `MAX_PAYLOAD` (R5). -/
def defaultMaxPayload : Nat := 256

/-- The largest legal `MAX_PAYLOAD`: the 16-bit length field must hold `1 + MAX_PAYLOAD` (R5). -/
def maxPayloadLimit : Nat := 65534

/-- `CHECKSUM_ENABLED` in `State.reset`. DESIGN CHOICE, unsafe for a claim about the reset state alone:
the spec gives no default (R6), see notes/assumptions/1.md. A claim over all states, or over
`construct` with any parameters, does not rest on it. -/
def resetChecksumEnabled : Bool := true

/-- The default parameters with a given checksum option: R6 leaves `CHECKSUM_ENABLED` to the host. -/
def defaultParams (checksumEnabled : Bool) : Params :=
  { header := defaultHeader
    trailer := defaultTrailer
    maxPayload := defaultMaxPayload
    checksumEnabled := checksumEnabled }

end Config

/-- R5: a configuration outside the range is refused. -/
abbrev Params.Legal (p : Params) : Prop := p.maxPayload ≤ Config.maxPayloadLimit

end Sys2Proof
end

