-- ==== Sys2Proof/Machine/State.lean ====
section
/-!
DEFINITION. The state of one core instance, as plain data, and its value after reset. Every row of the
state summary of 10_state.md is a field. Two further fields are the model's own account of the host
interface: the requests the host has issued and the core has not yet taken, and what the core has
given back.
-/

namespace Sys2Proof.Machine

/-- The ten decoder states (R15). The spec allows an enumeration in place of codes (R57); an unused code
0xA..0xF can then not be represented (93_implementation_defined.md U6). -/
inductive DState where
  | waitHeader1
  | waitHeader2
  | waitLengthHi
  | waitLengthLo
  | waitCmd
  | readData
  | waitCrc1
  | waitCrc2
  | waitEnd1
  | waitEnd2
  deriving DecidableEq, Repr

/-- The one output event, to the consumer, with copies of its values (R113). -/
inductive Event where
  /-- `Packet(c, p)`: a valid frame was completed. -/
  | packet (c : Byte) (p : List Byte)
  deriving DecidableEq, Repr

/-- The response of an operation, to its issuer: exactly one per operation (R63). -/
inductive Response where
  /-- `Ack`: RESET and every FEED. -/
  | ack
  /-- `TxFrame(f)`: ENCODE on success. -/
  | txFrame (f : List Byte)
  /-- `Err(PayloadTooLong)`: ENCODE on failure (R77, R108). The only error ever reported (R112). -/
  | errPayloadTooLong
  /-- `Crc(v)`: CHECKSUM. -/
  | crc (v : Word)
  /-- `Refused`: a request with a reserved selector, or a malformed one (R64, R65). -/
  | refused
  deriving DecidableEq, Repr

/-- What crosses the core's boundary outwards, in order. An event of a FEED comes before that FEED's
response (R113). -/
inductive Output where
  | event (e : Event)
  | response (r : Response)
  deriving DecidableEq, Repr

/-- A byte buffer with indices from 0 (R31): the bytes written so far, index strictly rising. An index that is not
listed holds no value: the contents of a buffer before a write are unspecified and no operation reads
them (R29). -/
abbrev Memory := List Host.Cell

/-- One core instance (R14, R22, R23 and 10_state.md section 1). -/
structure State where
  /-- `CFG_HEADER` (R10). -/
  cfgHeader : Word
  /-- `CFG_TRAILER` (R11). -/
  cfgTrailer : Word
  /-- `CFG_MAXPAY` (R12). -/
  cfgMaxPay : Word
  /-- `CFG_CRC_EN`, 1 bit (R13). -/
  cfgCrcEn : Bool
  /-- `dstate`, the decoder state (R15). -/
  dstate : DState
  /-- `len_reg`, the declared length (R16). -/
  lenReg : Word
  /-- `cmd_reg`, the command byte (R17). -/
  cmdReg : Byte
  /-- `idx`, the payload index (R18). -/
  idx : Word
  /-- `rx_crc`, the received checksum (R19). -/
  rxCrc : Word
  /-- `PBUF`, the payload buffer, indices 0..MAX_PAYLOAD-1 (R20). -/
  pbuf : Memory
  /-- `SPAN`, the checksum-span buffer, indices 0..MAX_PAYLOAD+2 (R21). -/
  span : Memory
  /-- `span_len`, the number of valid bytes in `SPAN`, 17 bits (R21). -/
  spanLen : BitVec 17
  /-- `SCRATCH`, the encoder scratch buffer, indices 0..MAX_PAYLOAD+8 (R22). -/
  scratch : Memory
  /-- `crc_acc`, the checksum accumulator, 16 bits. It "exists only during a computation" (R23, R125):
  `none` between computations. -/
  crcAcc : Option Word
  /-- MODEL'S OWN: the requests the host issues, oldest first; the next step takes the first one. The
  core itself has no queue: this is the host's own order of issue (R42). -/
  requests : List (List Byte)
  /-- MODEL'S OWN: every event and response so far, oldest first. No operation reads it. -/
  outputs : List Output
  deriving DecidableEq, Repr

/-- Why a step can stop. No state reachable from construction raises any of these (R95, R96): they
guard states in which the invariants of R28 do not hold. -/
inductive Fault where
  /-- FEED in READ_DATA: `PBUF` index `idx` is not below `MAX_PAYLOAD`; or FEED in WAIT_END_2: `idx` is
  above `MAX_PAYLOAD`. The buffer has no such byte (R20, R31). Safe: the model stops where the spec
  has no behaviour. -/
  | pbufOutside
  /-- FEED in WAIT_LENGTH_LO, WAIT_CMD or READ_DATA: `SPAN` index `span_len` is not below `SPAN_CAP`; or
  FEED in WAIT_CRC_2: `span_len` is above `SPAN_CAP`. The buffer has no such byte (R21, R31). Safe. -/
  | spanOutside
  /-- FEED in WAIT_END_2 would deliver a byte of `PBUF` that nothing has written (R20, R29). Safe. -/
  | pbufUnwritten
  /-- FEED in WAIT_CRC_2 would read a byte of `SPAN` that nothing has written (R21, R29). Safe. -/
  | spanUnwritten
  deriving DecidableEq, Repr

/-- Why an operation has no meaning. No arm of `exec` raises one: a request the core itself refuses is
answered by the response `Refused`, and the core goes on (R64). -/
inductive Refusal where
  /-- Raised by an arm of `exec` that has no meaning yet; none is left. Safe. -/
  | notModelled (mnemonic : String)
  deriving DecidableEq, Repr

/-- The machine right after construction with the default configuration (R124, R125), nothing requested
and nothing given back. `CFG_CRC_EN` has no default in the spec: see `Config.resetChecksumEnabled`. -/
def State.reset : State :=
  { cfgHeader := Config.defaultHeader
    cfgTrailer := Config.defaultTrailer
    cfgMaxPay := BitVec.ofNat 16 Config.defaultMaxPayload
    cfgCrcEn := Config.resetChecksumEnabled
    dstate := .waitHeader1
    lenReg := 0x0000#16
    cmdReg := 0x00#8
    idx := 0x0000#16
    rxCrc := 0x0000#16
    pbuf := []
    span := []
    spanLen := 0#17
    scratch := []
    crcAcc := none
    requests := []
    outputs := [] }

end Sys2Proof.Machine
end

