-- ==== Sys2Proof/Machine/Ops.lean ====
section
/-!
DEFINITION. The named operations over buffers, registers and the host interface that the meanings share:
one byte of a buffer, the checksum computation with its accumulator, the return to hunt, giving a
response, and taking the next request.
-/

namespace Sys2Proof.Machine

/-! ### Buffers (R31, R38: every access is one byte wide) -/

/-- `MemRead(BUF, i, 1)`: the byte at index i, none where nothing has written it. -/
def Memory.read (m : Memory) (i : Nat) : Option Byte :=
  match m with
  | [] => none
  | (k, v) :: rest => if i = k then some v else Memory.read rest i

/-- `MemWrite(BUF, i, 1, v)`. Keeps the indices strictly rising. -/
def Memory.write (m : Memory) (i : Nat) (v : Byte) : Memory :=
  match m with
  | [] => [(i, v)]
  | (k, w) :: rest =>
    if i < k then (i, v) :: (k, w) :: rest
    else if i = k then (k, v) :: rest
    else (k, w) :: Memory.write rest i v

/-- Write the bytes of a sequence at rising indices from i. -/
def Memory.writeAll (m : Memory) (i : Nat) : List Byte → Memory
  | [] => m
  | v :: vs => Memory.writeAll (m.write i v) (i + 1) vs

/-- `BUF[0..n)`: the first n bytes, none if any of them is unwritten. -/
def Memory.readRange (m : Memory) : Nat → Option (List Byte)
  | 0 => some []
  | n + 1 =>
    match m.readRange n, m.read n with
    | some bytes, some b => some (bytes ++ [b])
    | _, _ => none

/-- The canonical form: indices strictly rising. An unlisted index holds no value, so no entry can equal
what an unlisted index reads as. -/
def Memory.wf : Memory → Bool
  | [] => true
  | [_] => true
  | a :: b :: rest => decide (a.1 < b.1) && Memory.wf (b :: rest)

/-- Every listed index lies below a capacity. -/
def Memory.within (m : Memory) (cap : Nat) : Bool := m.all fun cell => decide (cell.1 < cap)

/-- `PBUF` has exactly `MAX_PAYLOAD` bytes (R20). -/
def State.pbufCap (s : State) : Nat := s.cfgMaxPay.toNat

/-- `SPAN_CAP = MAX_PAYLOAD + 3` (R9, R21). -/
def State.spanCap (s : State) : Nat := s.cfgMaxPay.toNat + 3

/-- `SCRATCH_CAP = MAX_PAYLOAD + 9` (R9, R22). -/
def State.scratchCap (s : State) : Nat := s.cfgMaxPay.toNat + 9

/-- `FRAME_OVERHEAD`: 9 with the checksum field, 7 without (R9). -/
def State.frameOverhead (s : State) : Nat := if s.cfgCrcEn then 9 else 7

/-- Start the checksum span: `SPAN[0] <- b`, `span_len <- 1` (R86). -/
def State.startSpan (s : State) (b : Byte) : State :=
  { s with span := s.span.write 0 b, spanLen := 1#17 }

/-- Append to the checksum span: `SPAN[span_len] <- b`, `span_len <- span_len + 1` (R87, R88, R89). -/
def State.appendSpan (s : State) (b : Byte) : Except Fault State :=
  if s.spanLen.toNat < s.spanCap then
    .ok { s with span := s.span.write s.spanLen.toNat b, spanLen := s.spanLen + 1#17 }
  else .error .spanOutside

/-- Store a payload byte: `PBUF[idx] <- b`, `idx <- idx + 1` (R89). -/
def State.appendPayload (s : State) (b : Byte) : Except Fault State :=
  if s.idx.toNat < s.pbufCap then
    .ok { s with pbuf := s.pbuf.write s.idx.toNat b, idx := s.idx + 1#16 }
  else .error .pbufOutside

/-- The payload a delivery carries, `PBUF[0..idx)` (R93). -/
def State.readPayload (s : State) : Except Fault (List Byte) :=
  if s.idx.toNat ≤ s.pbufCap then
    match s.pbuf.readRange s.idx.toNat with
    | some p => .ok p
    | none => .error .pbufUnwritten
  else .error .pbufOutside

/-- The accumulated checksum span, `SPAN[0..span_len)` (R91). -/
def State.readSpan (s : State) : Except Fault (List Byte) :=
  if s.spanLen.toNat ≤ s.spanCap then
    match s.span.readRange s.spanLen.toNat with
    | some d => .ok d
    | none => .error .spanUnwritten
  else .error .spanOutside

/-! ### A checksum computation (R23, R70) -/

/-- `crc_acc <- 0xFFFF`: the start of every computation (R23, R70). -/
def State.crcStart (s : State) : State := { s with crcAcc := some crcInit }

/-- `crc_acc <- CRC_STEP(crc_acc, b)`. -/
def State.crcByte (s : State) (b : Byte) : State := { s with crcAcc := s.crcAcc.map (crcStep · b) }

/-- The end of a computation: the accumulator exists no longer (R125). -/
def State.crcEnd (s : State) : State := { s with crcAcc := none }

/-- One whole checksum computation: its result, and the state after it. -/
def State.runChecksum (s : State) (data : List Byte) : Word × State :=
  let t := data.foldl State.crcByte s.crcStart
  (t.crcAcc.getD crcInit, t.crcEnd)

/-! ### The abort and the responses -/

/-- `HUNT()`: the return to header search (R83), and the core's one trap-like mechanism (R116): it saves
nothing and leaves the buffer contents as they are. -/
def State.hunt (s : State) : State :=
  { s with
    dstate := .waitHeader1
    lenReg := 0x0000#16
    cmdReg := 0x00#8
    idx := 0x0000#16
    rxCrc := 0x0000#16
    spanLen := 0#17 }

/-- `emit Ev(args)`: append an output event. -/
def State.emit (s : State) (e : Event) : State := { s with outputs := s.outputs ++ [.event e] }

/-- `return v`: the operation's one response (R3, R63). -/
def State.respond (s : State) (r : Response) : State :=
  { s with outputs := s.outputs ++ [.response r] }

/-- `raise PayloadTooLong()`: the operation ends with the error, nothing else changes (R77, R108). -/
def State.raisePayloadTooLong (s : State) : State := s.respond .errPayloadTooLong

/-! ### The host's requests -/

/-- The next request the host issued and the state in which it is no longer pending. -/
def State.takeRequest (s : State) : Option (Request × State) :=
  match s.requests with
  | [] => none
  | r :: rest => some (r, { s with requests := rest })

/-- What the core does with a request it refuses: no state changes, no event, the response is `Refused`
(R64, R65). -/
def State.refuse (s : State) : State := s.respond .refused

/-- The host issues requests: they take effect after those already issued (R42). -/
def State.issue (s : State) (rs : List Request) : State := { s with requests := s.requests ++ rs }

/-- The host issues a request that takes effect before those already issued. -/
def State.issueFirst (s : State) (r : Request) : State := { s with requests := r :: s.requests }

/-! ### Construction -/

/-- Construct an instance: its power-on reset (R124, R125). A configuration with `MAX_PAYLOAD` outside
0..65534 is refused and no instance exists (R5, R12). -/
def construct (p : Params) : Option State :=
  if p.maxPayload ≤ Config.maxPayloadLimit then
    some { State.reset with
      cfgHeader := p.header
      cfgTrailer := p.trailer
      cfgMaxPay := BitVec.ofNat 16 p.maxPayload
      cfgCrcEn := p.checksumEnabled }
  else none

end Sys2Proof.Machine
end

