-- ==== Sys2Proof/Machine/Checksum.lean ====
section
/-!
DEFINITION. The meaning of CHECKSUM (R74).
-/

namespace Sys2Proof.Machine

/-- CHECKSUM (R74). It reads no state, not even `CFG_CRC_EN`, and changes none: the accumulator of the
computation does not outlive it (R23). -/
def execChecksum (d : List Byte) (s : State) : Host.Outcome State Fault Refusal :=
  let (v, t) := s.runChecksum d
  .next (t.respond (.crc v))

end Sys2Proof.Machine
end

