-- ==== Sys2Proof/Machine/Control.lean ====
section
/-!
DEFINITION. The meaning of RESET (43_control.md, R104).
-/

namespace Sys2Proof.Machine

/-- RESET (R104): HUNT, and the response is `Ack`. A frame in assembly is discarded with no event; the
configuration, `SCRATCH` and the buffer contents stay (R105). -/
def execReset (s : State) : Host.Outcome State Fault Refusal := .next (s.hunt.respond .ack)

end Sys2Proof.Machine
end

