-- ==== Sys2Proof/Machine/Flags.lean ====
section
/-!
DEFINITION. The conditions the decoder and the encoder test. The core has no status flags and no condition
codes (R26): no operation records the outcome of any of these tests.
-/

namespace Sys2Proof.Machine

/-- `b == header_hi` (R84). -/
abbrev State.HeaderHi (s : State) (b : Byte) : Prop := b = hi s.cfgHeader

/-- `b == header_lo` (R85). -/
abbrev State.HeaderLo (s : State) (b : Byte) : Prop := b = lo s.cfgHeader

/-- `b == trailer_hi` (R92). -/
abbrev State.TrailerHi (s : State) (b : Byte) : Prop := b = hi s.cfgTrailer

/-- `b == trailer_lo` (R93). -/
abbrev State.TrailerLo (s : State) (b : Byte) : Prop := b = lo s.cfgTrailer

/-- `1 <= len_reg and len_reg <= CFG_MAXPAY + 1`, an exact unsigned comparison (R87, R48). DEDUCED
(notes/assumptions/18.md): with `MAX_PAYLOAD` = 65534 the length 0xFFFF is legal, as this comparison says,
although R87's corner cases say that it always aborts. -/
abbrev State.LengthLegal (s : State) : Prop :=
  1 ≤ s.lenReg.toNat ∧ s.lenReg.toNat ≤ s.cfgMaxPay.toNat + 1

/-- `len_reg == 1`: the frame has no payload (R88). -/
abbrev State.NoPayload (s : State) : Prop := s.lenReg.toNat = 1

/-- `idx == len_reg - 1`, on the incremented index; exact arithmetic (R89). -/
abbrev State.PayloadComplete (s : State) : Prop := s.idx.toNat + 1 = s.lenReg.toNat

/-- `n > CFG_MAXPAY` (R76, R77). -/
abbrev State.TooLong (s : State) (p : List Byte) : Prop := s.cfgMaxPay.toNat < p.length

/-- Where the decoder goes once the payload is complete (R88, R89). -/
def State.afterPayload (s : State) : DState := if s.cfgCrcEn then .waitCrc1 else .waitEnd1

end Sys2Proof.Machine
end

