-- ==== Sys2Proof/Machine/Encoder.lean ====
section
/-!
DEFINITION. The frame encoder and the meaning of ENCODE (41_encoder.md, R76 to R81), with the frame format
of 30_encoding.md part 1.
-/

namespace Sys2Proof.Machine

/-- The length field of a frame with this payload, L = 1 + n, in its 16 bits (R48, R76). -/
def lengthField (p : List Byte) : Word := BitVec.ofNat 16 (1 + p.length)

/-- The checksum span of a frame: `be16(L) ‖ [C] ‖ P` (R52). -/
def frameSpan (c : Byte) (p : List Byte) : List Byte := be16 (lengthField p) ++ c :: p

/-- The checksum field: `be16(checksum(span))`, absent, not zero, when the checksum is disabled (R51). It
is a checksum computation of the engine, so it takes and leaves the state that holds `crc_acc`. -/
def State.checksumField (s : State) (span : List Byte) : List Byte × State :=
  if s.cfgCrcEn then
    let (v, t) := s.runChecksum span
    (be16 v, t)
  else ([], s)

/-- ENCODE (R76). The length check comes before anything else (R77). -/
def execEncode (c : Byte) (p : List Byte) (s : State) : Host.Outcome State Fault Refusal :=
  if s.TooLong p then .next s.raisePayloadTooLong
  else
    let (field, t) := s.checksumField (frameSpan c p)
    let f := be16 s.cfgHeader ++ frameSpan c p ++ field ++ be16 s.cfgTrailer
    .next ({ t with scratch := t.scratch.writeAll 0 f }.respond (.txFrame f))

/-- The frame of R46, as a function of a configuration: header, length, command, payload, checksum field
when enabled, trailer. -/
def frame (header trailer : Word) (crcEn : Bool) (c : Byte) (p : List Byte) : List Byte :=
  be16 header ++ frameSpan c p ++ (if crcEn then be16 (checksum (frameSpan c p)) else [])
    ++ be16 trailer

end Sys2Proof.Machine
end

