-- ==== Sys2Proof/Machine/Decoder.lean ====
section
/-!
DEFINITION. The frame decoder: one rule per decoder state (R84 to R93), before the response. Each rule
takes the received byte and the state as it was when the FEED began, and answers the state after it,
or the fault it stops with in a state that no run reaches.
-/

namespace Sys2Proof.Machine

/-- FEED in WAIT_HEADER_1 (R84). -/
def ruleWaitHeader1 (b : Byte) (s : State) : Except Fault State :=
  .ok (if s.HeaderHi b then { s with dstate := .waitHeader2 } else s)

/-- FEED in WAIT_HEADER_2 (R85). The mismatching byte is consumed (R97). -/
def ruleWaitHeader2 (b : Byte) (s : State) : Except Fault State :=
  .ok (if s.HeaderLo b then { s with dstate := .waitLengthHi } else s.hunt)

/-- FEED in WAIT_LENGTH_HI (R86). No check is made on this byte alone. -/
def ruleWaitLengthHi (b : Byte) (s : State) : Except Fault State :=
  .ok { s.startSpan b with lenReg := setHi s.lenReg b, dstate := .waitLengthLo }

/-- The length check of WAIT_LENGTH_LO, on the whole register (R87). -/
def checkLength (s : State) : State :=
  if s.LengthLegal then { s with dstate := .waitCmd } else s.hunt

/-- FEED in WAIT_LENGTH_LO (R87). -/
def ruleWaitLengthLo (b : Byte) (s : State) : Except Fault State :=
  match s.appendSpan b with
  | .ok t => .ok (checkLength { t with lenReg := setLo s.lenReg b })
  | .error f => .error f

/-- FEED in WAIT_CMD (R88). -/
def ruleWaitCmd (b : Byte) (s : State) : Except Fault State :=
  match s.appendSpan b with
  | .ok t =>
    .ok { t with
      cmdReg := b
      idx := 0x0000#16
      dstate := if s.NoPayload then s.afterPayload else .readData }
  | .error f => .error f

/-- The end-of-payload test of READ_DATA, on the incremented index (R89). -/
def checkPayload (s : State) : State :=
  if s.PayloadComplete then { s with dstate := s.afterPayload } else s

/-- FEED in READ_DATA (R89). -/
def ruleReadData (b : Byte) (s : State) : Except Fault State :=
  match s.appendPayload b with
  | .ok t =>
    match t.appendSpan b with
    | .ok u => .ok (checkPayload u)
    | .error f => .error f
  | .error f => .error f

/-- FEED in WAIT_CRC_1 (R90). The byte is not appended to the span. -/
def ruleWaitCrc1 (b : Byte) (s : State) : Except Fault State :=
  .ok { s with rxCrc := setHi s.rxCrc b, dstate := .waitCrc2 }

/-- The checksum comparison of WAIT_CRC_2, with the computed checksum v (R91). -/
def checkCrc (v : Word) (s : State) : State :=
  if v = s.rxCrc then { s with dstate := .waitEnd1 } else s.hunt

/-- FEED in WAIT_CRC_2 (R91). -/
def ruleWaitCrc2 (b : Byte) (s : State) : Except Fault State :=
  match s.readSpan with
  | .ok d =>
    let (v, t) := s.runChecksum d
    .ok (checkCrc v { t with rxCrc := setLo s.rxCrc b })
  | .error f => .error f

/-- FEED in WAIT_END_1 (R92). -/
def ruleWaitEnd1 (b : Byte) (s : State) : Except Fault State :=
  .ok (if s.TrailerHi b then { s with dstate := .waitEnd2 } else s.hunt)

/-- FEED in WAIT_END_2 (R93). The event's values are read before HUNT runs. -/
def ruleWaitEnd2 (b : Byte) (s : State) : Except Fault State :=
  if s.TrailerLo b then
    match s.readPayload with
    | .ok p => .ok (s.emit (.packet s.cmdReg p)).hunt
    | .error f => .error f
  else .ok s.hunt

/-- The rule of a decoder state (R82). -/
def ruleOf : DState → Byte → State → Except Fault State
  | .waitHeader1 => ruleWaitHeader1
  | .waitHeader2 => ruleWaitHeader2
  | .waitLengthHi => ruleWaitLengthHi
  | .waitLengthLo => ruleWaitLengthLo
  | .waitCmd => ruleWaitCmd
  | .readData => ruleReadData
  | .waitCrc1 => ruleWaitCrc1
  | .waitCrc2 => ruleWaitCrc2
  | .waitEnd1 => ruleWaitEnd1
  | .waitEnd2 => ruleWaitEnd2

/-- The end of every FEED: the response is `Ack`, after an abort too (R82, R100). -/
def finishFeed : Except Fault State → Host.Outcome State Fault Refusal
  | .ok s => .next (s.respond .ack)
  | .error f => .fault f

end Sys2Proof.Machine
end

