-- ==== Sys2Proof/Machine/Feed.lean ====
section
/-!
DEFINITION. The meanings of FEED and of its ten rows (42_decoder.md). The words of a row are FEED's own and
the decoder state alone tells the rows apart (R57, R60), so a row met in a state that is not its own is
the FEED those words ask for: the rule of that state runs (R82), see notes/assumptions/4.md.
-/

namespace Sys2Proof.Machine

/-- FEED (R82): exactly one state rule runs, that of `dstate` as it was when the FEED began. -/
def execFeed (b : Byte) (s : State) : Host.Outcome State Fault Refusal :=
  finishFeed (ruleOf s.dstate b s)

/-- FEED.WAIT_HEADER_1 (R84). -/
def execFeedWaitHeader1 (b : Byte) (s : State) : Host.Outcome State Fault Refusal :=
  if s.dstate = .waitHeader1 then finishFeed (ruleWaitHeader1 b s) else execFeed b s

/-- FEED.WAIT_HEADER_2 (R85). -/
def execFeedWaitHeader2 (b : Byte) (s : State) : Host.Outcome State Fault Refusal :=
  if s.dstate = .waitHeader2 then finishFeed (ruleWaitHeader2 b s) else execFeed b s

/-- FEED.WAIT_LENGTH_HI (R86). -/
def execFeedWaitLengthHi (b : Byte) (s : State) : Host.Outcome State Fault Refusal :=
  if s.dstate = .waitLengthHi then finishFeed (ruleWaitLengthHi b s) else execFeed b s

/-- FEED.WAIT_LENGTH_LO (R87). -/
def execFeedWaitLengthLo (b : Byte) (s : State) : Host.Outcome State Fault Refusal :=
  if s.dstate = .waitLengthLo then finishFeed (ruleWaitLengthLo b s) else execFeed b s

/-- FEED.WAIT_CMD (R88). -/
def execFeedWaitCmd (b : Byte) (s : State) : Host.Outcome State Fault Refusal :=
  if s.dstate = .waitCmd then finishFeed (ruleWaitCmd b s) else execFeed b s

/-- FEED.READ_DATA (R89). -/
def execFeedReadData (b : Byte) (s : State) : Host.Outcome State Fault Refusal :=
  if s.dstate = .readData then finishFeed (ruleReadData b s) else execFeed b s

/-- FEED.WAIT_CRC_1 (R90). -/
def execFeedWaitCrc1 (b : Byte) (s : State) : Host.Outcome State Fault Refusal :=
  if s.dstate = .waitCrc1 then finishFeed (ruleWaitCrc1 b s) else execFeed b s

/-- FEED.WAIT_CRC_2 (R91). -/
def execFeedWaitCrc2 (b : Byte) (s : State) : Host.Outcome State Fault Refusal :=
  if s.dstate = .waitCrc2 then finishFeed (ruleWaitCrc2 b s) else execFeed b s

/-- FEED.WAIT_END_1 (R92). -/
def execFeedWaitEnd1 (b : Byte) (s : State) : Host.Outcome State Fault Refusal :=
  if s.dstate = .waitEnd1 then finishFeed (ruleWaitEnd1 b s) else execFeed b s

/-- FEED.WAIT_END_2 (R93). -/
def execFeedWaitEnd2 (b : Byte) (s : State) : Host.Outcome State Fault Refusal :=
  if s.dstate = .waitEnd2 then finishFeed (ruleWaitEnd2 b s) else execFeed b s

end Sys2Proof.Machine
end

