-- ==== Sys2Proof/Machine/Dispatch.lean ====
section
/-!
DEFINITION. One arm per constructor of Instr.
-/

namespace Sys2Proof.Machine

def exec (i : Instr) (s : State) : Host.Outcome State Fault Refusal :=
  match i with
  | .reset => Sys2Proof.Machine.execReset s
  | .feed b => Sys2Proof.Machine.execFeed b s
  | .feedWaitHeader1 b => Sys2Proof.Machine.execFeedWaitHeader1 b s
  | .feedWaitHeader2 b => Sys2Proof.Machine.execFeedWaitHeader2 b s
  | .feedWaitLengthHi b => Sys2Proof.Machine.execFeedWaitLengthHi b s
  | .feedWaitLengthLo b => Sys2Proof.Machine.execFeedWaitLengthLo b s
  | .feedWaitCmd b => Sys2Proof.Machine.execFeedWaitCmd b s
  | .feedReadData b => Sys2Proof.Machine.execFeedReadData b s
  | .feedWaitCrc1 b => Sys2Proof.Machine.execFeedWaitCrc1 b s
  | .feedWaitCrc2 b => Sys2Proof.Machine.execFeedWaitCrc2 b s
  | .feedWaitEnd1 b => Sys2Proof.Machine.execFeedWaitEnd1 b s
  | .feedWaitEnd2 b => Sys2Proof.Machine.execFeedWaitEnd2 b s
  | .encode c p => Sys2Proof.Machine.execEncode c p s
  | .checksum d => Sys2Proof.Machine.execChecksum d s

end Sys2Proof.Machine
end

