-- ==== Sys2Proof/Machine/Step.lean ====
section
/-!
DEFINITION. One step of the core: the next operation the host issued, whole (R3, R40, R42).
-/

namespace Sys2Proof.Machine

/-- The step. Each operation is one atomic step (R3). A request that is none is answered `Refused` and
changes nothing else (R64, R65). With no operation issued the instance "simply holds its state"
(R123). -/
def step (s : State) : Host.Outcome State Fault Refusal :=
  match s.takeRequest with
  | none => .next s
  | some (r, t) =>
    match decode r with
    | .ok i => exec i t
    | .error _ => .next t.refuse

/-- `s` with the request of an opcode-table word issued before every other, so that the very next step
runs it. The core fetches no instructions (R45): the host's issuing of the operation stands where a
fetch would. -/
def State.withFetchWord (s : State) (nbits w : Nat) : State := s.issueFirst (tableRequest nbits w)

end Sys2Proof.Machine
end

