-- ==== Sys2Proof/Machine/Wire.lean ====
section
/-!
DEFINITION. Byte forms the spec fixes beside the requests: the 4-bit code of a decoder state (R57), the byte
form of each response and of the Packet event (R63), and what a host reads from the outputs.
-/

namespace Sys2Proof.Machine

/-- The 4-bit code of a decoder state (R57). No response or event reveals a code. -/
def DState.code : DState → BitVec 4
  | .waitHeader1 => 0x0#4
  | .waitHeader2 => 0x1#4
  | .waitLengthHi => 0x2#4
  | .waitLengthLo => 0x3#4
  | .waitCmd => 0x4#4
  | .readData => 0x5#4
  | .waitCrc1 => 0x6#4
  | .waitCrc2 => 0x7#4
  | .waitEnd1 => 0x8#4
  | .waitEnd2 => 0x9#4

/-- The decoder state of a 4-bit code; codes 0xA to 0xF are unused (R57). -/
def DState.ofCode (c : BitVec 4) : Option DState :=
  [DState.waitHeader1, .waitHeader2, .waitLengthHi, .waitLengthLo, .waitCmd, .readData, .waitCrc1,
    .waitCrc2, .waitEnd1, .waitEnd2][c.toNat]?

/-- The byte form of a response (R63). The error code of PayloadTooLong is 1 (R108). -/
def Response.bytes : Response → List Byte
  | .ack => [0x00#8]
  | .txFrame f => 0x01#8 :: (count32 f.length ++ f)
  | .errPayloadTooLong => [0x80#8, 0x01#8]
  | .crc v => 0x02#8 :: be16 v
  | .refused => [0xFF#8]

/-- The byte form of an event (R63). -/
def Event.bytes : Event → List Byte
  | .packet c p => 0xE0#8 :: c :: (count16 p.length ++ p)

/-- The events among some outputs, in order: what the consumer sees. -/
def eventsOf : List Output → List Event
  | [] => []
  | .event e :: rest => e :: eventsOf rest
  | .response _ :: rest => eventsOf rest

/-- The responses among some outputs, in order: what the issuers of the operations see. -/
def responsesOf : List Output → List Response
  | [] => []
  | .event _ :: rest => responsesOf rest
  | .response r :: rest => r :: responsesOf rest

/-- Every event the core has emitted, oldest first. -/
def State.events (s : State) : List Event := eventsOf s.outputs

/-- Every response the core has given, oldest first. -/
def State.responses (s : State) : List Response := responsesOf s.outputs

end Sys2Proof.Machine
end

