-- ==== Sys2Proof/Machine/Assembler.lean ====
section
/-!
DEFINITION. The assembler syntax of the core's operations (30_encoding.md, R66, R67, R68): the lines of a
program, the requests each expands to, and reading a line's text. Expansion is done by the host; the
core sees only the requests (R67).
-/

namespace Sys2Proof.Machine

/-- The keys of a `.config` directive. `crc` has no default and must be given (R68). -/
structure ConfigKeys where
  header : Option Word
  trailer : Option Word
  maxPayload : Option Nat
  crc : Option Bool
  deriving DecidableEq, Repr

/-- One line of a program (R66, R67, R68). -/
inductive Line where
  | reset
  | feed (b : Byte)
  | encode (c : Byte) (p : List Byte)
  | checksum (d : List Byte)
  /-- `FEEDS <b0>, ..., <bk>` (R67). -/
  | feeds (bs : List Byte)
  /-- `FEEDS @tx` (R67). -/
  | feedsTx
  /-- `.byte <b0>, ..., <bk>`: one raw request, unchanged (R67). -/
  | raw (bytes : List Byte)
  /-- `.config`: constructs a new instance (R68). -/
  | config (p : Params)
  deriving DecidableEq, Repr

/-- The frame in the most recent `TxFrame` response, if any ENCODE has succeeded (R67). -/
def lastFrame : List Response → Option (List Byte)
  | [] => none
  | .txFrame f :: rest =>
    match lastFrame rest with
    | some g => some g
    | none => some f
  | .ack :: rest => lastFrame rest
  | .errPayloadTooLong :: rest => lastFrame rest
  | .crc _ :: rest => lastFrame rest
  | .refused :: rest => lastFrame rest

/-- The requests of a line (R66, R67); `tx` is the frame of the most recent `TxFrame`. DESIGN CHOICE
(notes/assumptions/20.md): a line with more bytes than its count field can hold is accepted and sent with the
low bits of the count, so the core refuses it as malformed. -/
def Line.requests (tx : Option (List Byte)) : Line → List Request
  | .reset => [Sys2Proof.encode .reset]
  | .feed b => [feedRequest b]
  | .encode c p => [Sys2Proof.encode (.encode c p)]
  | .checksum d => [Sys2Proof.encode (.checksum d)]
  | .feeds bs => bs.map feedRequest
  | .feedsTx => (tx.getD []).map feedRequest
  | .raw bytes => [bytes]
  | .config _ => []

/-- What a line does to the instance the program runs on: it issues the line's requests, or, for
`.config`, puts a newly constructed instance in its place (R68); none where construction refuses.
DESIGN CHOICE (notes/assumptions/19.md): the `TxFrame` of `FEEDS @tx` is the most recent one of the instance
the program runs on, so right after a `.config` there is none. DESIGN CHOICE (notes/assumptions/21.md): a
line is expanded when it is issued, from the responses given by then; a program whose lines depend on
earlier responses issues each line after the earlier ones have been answered. -/
def Line.issue (l : Line) (s : State) : Option State :=
  match l with
  | .config p => construct p
  | l => some (s.issue (l.requests (lastFrame s.responses)))

/-! ### Reading a line's text (R66) -/

/-- The tokens of a line. -/
inductive Token where
  | word (cs : List Char)
  | comma
  | openBracket
  | closeBracket
  | equals
  deriving DecidableEq, Repr

/-- The word read so far, if any. -/
def flushWord : List Char → List Token
  | [] => []
  | cs => [.word cs]

/-- Split a line into tokens; `;` starts a comment (R66). `pending` is the word being read. -/
def tokens (pending : List Char) : List Char → List Token
  | [] => flushWord pending
  | c :: cs =>
    if c = ';' then flushWord pending
    else if c = ' ' ∨ c = '\t' then flushWord pending ++ tokens [] cs
    else if c = ',' then flushWord pending ++ .comma :: tokens [] cs
    else if c = '[' then flushWord pending ++ .openBracket :: tokens [] cs
    else if c = ']' then flushWord pending ++ .closeBracket :: tokens [] cs
    else if c = '=' then flushWord pending ++ .equals :: tokens [] cs
    else tokens (pending ++ [c]) cs

/-- The value of a digit, below 16. -/
def digitValue (c : Char) : Option Nat :=
  if '0'.toNat ≤ c.toNat ∧ c.toNat ≤ '9'.toNat then some (c.toNat - '0'.toNat)
  else if 'A'.toNat ≤ c.toNat ∧ c.toNat ≤ 'F'.toNat then some (c.toNat - 'A'.toNat + 10)
  else if 'a'.toNat ≤ c.toNat ∧ c.toNat ≤ 'f'.toNat then some (c.toNat - 'a'.toNat + 10)
  else none

/-- Digits in a base, most significant first, after the value `n`. -/
def digitsValue (base n : Nat) : List Char → Option Nat
  | [] => some n
  | c :: cs =>
    match digitValue c with
    | some d => if d < base then digitsValue base (n * base + d) cs else none
    | none => none

/-- A number in hex (`0xAA`) or decimal (`170`) (R66). -/
def numberValue : List Char → Option Nat
  | [] => none
  | '0' :: 'x' :: c :: cs => digitsValue 16 0 (c :: cs)
  | c :: cs => digitsValue 10 0 (c :: cs)

/-- A byte literal (R66). -/
def byteLiteral (cs : List Char) : Option Byte :=
  match numberValue cs with
  | some n => if n < 256 then some (BitVec.ofNat 8 n) else none
  | none => none

/-- A 16-bit literal (R68). -/
def wordLiteral (cs : List Char) : Option Word :=
  match numberValue cs with
  | some n => if n < 65536 then some (BitVec.ofNat 16 n) else none
  | none => none

/-- `<b0>, <b1>, ..., <bk>`, at least one (R67). -/
def byteItems : List Token → Option (List Byte)
  | [.word w] => (byteLiteral w).map fun b => [b]
  | .word w :: .comma :: rest =>
    match byteLiteral w, byteItems rest with
    | some b, some bs => some (b :: bs)
    | _, _ => none
  | _ => none

/-- `[<b0>, ..., <bk>]`, where `[]` is the empty list (R66). -/
def byteList : List Token → Option (List Byte)
  | [.openBracket, .closeBracket] => some []
  | .openBracket :: rest =>
    if rest.getLast? = some .closeBracket then byteItems rest.dropLast else none
  | _ => none

/-- Give one key of `.config` its value (R68). -/
def ConfigKeys.set (k : ConfigKeys) (key value : List Char) : Option ConfigKeys :=
  if key = ['h', 'e', 'a', 'd', 'e', 'r'] then
    (wordLiteral value).map fun w => { k with header := some w }
  else if key = ['t', 'r', 'a', 'i', 'l', 'e', 'r'] then
    (wordLiteral value).map fun w => { k with trailer := some w }
  else if key = ['m', 'a', 'x'] then
    (numberValue value).map fun n => { k with maxPayload := some n }
  else if key = ['c', 'r', 'c'] then
    if value = ['0'] then some { k with crc := some false }
    else if value = ['1'] then some { k with crc := some true }
    else none
  else none

/-- The keys of `.config`, in any order (R68). -/
def configKeys : ConfigKeys → List Token → Option ConfigKeys
  | k, [.word key, .equals, .word value] => k.set key value
  | k, .word key :: .equals :: .word value :: .comma :: rest =>
    match k.set key value with
    | some k' => configKeys k' rest
    | none => none
  | _, _ => none

/-- The parameters of `.config`: an omitted key takes its default, but `crc` must be given (R68). -/
def ConfigKeys.params (k : ConfigKeys) : Option Params :=
  k.crc.map fun crc =>
    { header := k.header.getD Config.defaultHeader
      trailer := k.trailer.getD Config.defaultTrailer
      maxPayload := k.maxPayload.getD Config.defaultMaxPayload
      checksumEnabled := crc }

/-- The words before the operands of a line (R66, R67, R68). -/
def mnemonicLine (m : List Char) (operands : List Token) : Option Line :=
  if m = ['R', 'E', 'S', 'E', 'T'] then
    if operands = [] then some .reset else none
  else if m = ['F', 'E', 'E', 'D'] then
    match operands with
    | [.word w] => (byteLiteral w).map .feed
    | _ => none
  else if m = ['E', 'N', 'C', 'O', 'D', 'E'] then
    match operands with
    | .word w :: .comma :: rest =>
      match byteLiteral w, byteList rest with
      | some c, some p => some (.encode c p)
      | _, _ => none
    | _ => none
  else if m = ['C', 'H', 'E', 'C', 'K', 'S', 'U', 'M'] then
    (byteList operands).map .checksum
  else if m = ['F', 'E', 'E', 'D', 'S'] then
    if operands = [.word ['@', 't', 'x']] then some .feedsTx else (byteItems operands).map .feeds
  else if m = ['.', 'b', 'y', 't', 'e'] then (byteItems operands).map .raw
  else if m = ['.', 'c', 'o', 'n', 'f', 'i', 'g'] then
    ((configKeys { header := none, trailer := none, maxPayload := none, crc := none } operands).bind
      ConfigKeys.params).map .config
  else none

/-- Read one line of a program: nothing for a blank or comment line, one `Line` otherwise, none for
text that is not of the syntax (R66). -/
def parseLine (text : List Char) : Option (List Line) :=
  match tokens [] text with
  | [] => some []
  | .word m :: operands => (mnemonicLine m operands).map fun l => [l]
  | _ => none

end Sys2Proof.Machine
end

