-- ==== Sys2Proof/Machine/Errors.lean ====
section
/-!
DEFINITION. The error taxonomy (60_exceptions.md section 1). Only PayloadTooLong is ever reported (R112).
The cause of an abort is a diagnostic tag outside the state: no host can observe it and no claim about
the core may rest on it (R112).
-/

namespace Sys2Proof.Machine

/-- The three error classes (R107). -/
inductive ErrorClass where
  | payloadTooLong
  | framingError
  | checksumMismatch
  deriving DecidableEq, Repr

/-- The class codes (60_exceptions.md section 1). -/
def ErrorClass.code : ErrorClass → Nat
  | .payloadTooLong => 1
  | .framingError => 2
  | .checksumMismatch => 3

/-- Why a FEED aborts a frame: the four sub-causes 2.1 to 2.4 of FramingError (R109), and
ChecksumMismatch (R110). -/
inductive AbortCause where
  | header
  | length
  | trailerHi
  | trailerLo
  | checksum
  deriving DecidableEq, Repr

/-- The class of an abort (R109, R110). -/
def AbortCause.errorClass : AbortCause → ErrorClass
  | .header => .framingError
  | .length => .framingError
  | .trailerHi => .framingError
  | .trailerLo => .framingError
  | .checksum => .checksumMismatch

/-- The sub-cause number of a FramingError; ChecksumMismatch has none. -/
def AbortCause.subCode : AbortCause → Option Nat
  | .header => some 1
  | .length => some 2
  | .trailerHi => some 3
  | .trailerLo => some 4
  | .checksum => none

/-- Why a FEED of byte b aborts the frame, none where it does not (R109, R110). A byte other than
`header_hi` in WAIT_HEADER_1 is not an error (R109). -/
def abortCause (b : Byte) (s : State) : Option AbortCause :=
  match s.dstate with
  | .waitHeader1 => none
  | .waitHeader2 => if s.HeaderLo b then none else some .header
  | .waitLengthHi => none
  | .waitLengthLo =>
    if { s with lenReg := setLo s.lenReg b }.LengthLegal then none else some .length
  | .waitCmd => none
  | .readData => none
  | .waitCrc1 => none
  | .waitCrc2 =>
    match s.readSpan with
    | .ok d => if checksum d = setLo s.rxCrc b then none else some .checksum
    | .error _ => none
  | .waitEnd1 => if s.TrailerHi b then none else some .trailerHi
  | .waitEnd2 => if s.TrailerLo b then none else some .trailerLo

end Sys2Proof.Machine
end

