-- ==== Sys2Proof/Machine/Fleet.lean ====
section
/-!
DEFINITION. Several cores side by side (R8, R121): any number may exist, they share no state, and an
operation on one neither reads nor writes another.
-/

namespace Sys2Proof.Machine

/-- The cores that exist, each with its own configuration, context, scratch and requests. -/
structure Fleet where
  members : List State
  deriving DecidableEq, Repr

/-- Construct one more core (R124); refused where its configuration is (R5). -/
def Fleet.construct (y : Fleet) (p : Params) : Option Fleet :=
  match Sys2Proof.Machine.construct p with
  | some s => some { members := y.members ++ [s] }
  | none => none

/-- The core at position k takes its next step; where there is no such core, nothing happens. -/
def Fleet.stepAt (y : Fleet) (k : Nat) : Host.Outcome Fleet Fault Refusal :=
  match y.members[k]? with
  | some s =>
    match step s with
    | .next t => .next { members := y.members.set k t }
    | .fault f => .fault f
    | .refused r => .refused r
  | none => .next y

end Sys2Proof.Machine
end

