-- ==== Sys2Proof/Machine/RunningCrc.lean ====
section
/-!
DEFINITION. The running-register form of the decoder that R98 permits: SPAN and span_len are replaced by one
16-bit register crc_run, so that every FEED is constant work (R139). It is a second design beside the
model's own, for comparison with it; `exec` does not use it.
-/

namespace Sys2Proof.Machine

/-- A core with the running register. The fields `span` and `spanLen` of `machine` are not part of this
design: no operation below writes or reads `span`, and `spanLen` is only cleared with the rest. -/
structure RunningState where
  machine : State
  /-- `crc_run` (R98). -/
  crcRun : Word
  deriving DecidableEq, Repr

/-- A state rule that neither appends to the span nor reads it is the same in both designs. -/
def RunningState.sameRule (r : RunningState) (result : Except Fault State) :
    Except Fault RunningState :=
  match result with
  | .ok t => .ok { r with machine := t }
  | .error f => .error f

/-- FEED with the running register: R86 starts it, R87, R88 and R89 advance it where they append, R91
compares it (R98). -/
def runningRule (b : Byte) (r : RunningState) : Except Fault RunningState :=
  let s := r.machine
  match s.dstate with
  | .waitHeader1 => r.sameRule (ruleWaitHeader1 b s)
  | .waitHeader2 => r.sameRule (ruleWaitHeader2 b s)
  | .waitLengthHi =>
    .ok { machine := { s with lenReg := setHi s.lenReg b, dstate := .waitLengthLo }
          crcRun := crcStep crcInit b }
  | .waitLengthLo =>
    .ok { machine := checkLength { s with lenReg := setLo s.lenReg b }
          crcRun := crcStep r.crcRun b }
  | .waitCmd =>
    .ok { machine := { s with
            cmdReg := b
            idx := 0x0000#16
            dstate := if s.NoPayload then s.afterPayload else .readData }
          crcRun := crcStep r.crcRun b }
  | .readData =>
    match s.appendPayload b with
    | .ok t => .ok { machine := checkPayload t, crcRun := crcStep r.crcRun b }
    | .error f => .error f
  | .waitCrc1 => r.sameRule (ruleWaitCrc1 b s)
  | .waitCrc2 => .ok { r with machine := checkCrc r.crcRun { s with rxCrc := setLo s.rxCrc b } }
  | .waitEnd1 => r.sameRule (ruleWaitEnd1 b s)
  | .waitEnd2 => r.sameRule (ruleWaitEnd2 b s)

/-- FEED of the running-register design, response included. -/
def execFeedRunning (b : Byte) (r : RunningState) : Host.Outcome RunningState Fault Refusal :=
  match runningRule b r with
  | .ok t => .next { t with machine := t.machine.respond .ack }
  | .error f => .fault f

end Sys2Proof.Machine
end

