-- ==== Sys2Proof/Safety.lean ====
section
/-!
DEFINITION. What claims about the core are stated in: the invariant of reachable states (R27, R28), what two
states may differ in without a host seeing it (R29, R98), and runs over a byte stream.
-/

namespace Sys2Proof.Machine

/-! ### The invariant of R27 and R28 -/

/-- The scalar registers of the context hold their reset values (R27, R125). -/
abbrev State.RegistersCleared (s : State) : Prop :=
  s.lenReg = 0x0000#16 ∧ s.cmdReg = 0x00#8 ∧ s.idx = 0x0000#16 ∧ s.rxCrc = 0x0000#16 ∧ s.spanLen = 0#17

/-- `PBUF[0..idx)` as far as it is written. -/
def State.payload? (s : State) : Option (List Byte) := s.pbuf.readRange s.idx.toNat

/-- `SPAN[0..span_len)` as far as it is written. -/
def State.span? (s : State) : Option (List Byte) := s.span.readRange s.spanLen.toNat

/-- The sequence S of R28: `be16(len_reg) ‖ [cmd_reg] ‖ PBUF[0..idx)`. -/
def State.expectedSpan (s : State) : Option (List Byte) :=
  s.payload?.map fun p => be16 s.lenReg ++ s.cmdReg :: p

/-- The columns idx and span of R28 from READ_DATA on: the payload so far is written, `span_len` is
3 + idx, and the span holds S. -/
abbrev State.SpanHoldsFrame (s : State) : Prop :=
  s.payload?.isSome = true ∧ s.spanLen.toNat = 3 + s.idx.toNat ∧ s.span? = s.expectedSpan

/-- R28, row WAIT_HEADER_1, WAIT_HEADER_2, WAIT_LENGTH_HI; this is R27. -/
abbrev State.HuntRow (s : State) : Prop :=
  s.dstate = .waitHeader1 ∨ s.dstate = .waitHeader2 ∨ s.dstate = .waitLengthHi → s.RegistersCleared

/-- R28, row WAIT_LENGTH_LO. -/
abbrev State.LengthLoRow (s : State) : Prop :=
  s.dstate = .waitLengthLo →
    lo s.lenReg = 0x00#8 ∧ s.cmdReg = 0x00#8 ∧ s.idx = 0x0000#16 ∧ s.rxCrc = 0x0000#16 ∧
    s.spanLen = 1#17 ∧ s.span? = some [hi s.lenReg]

/-- R28, row WAIT_CMD. -/
abbrev State.CmdRow (s : State) : Prop :=
  s.dstate = .waitCmd →
    s.LengthLegal ∧ s.cmdReg = 0x00#8 ∧ s.idx = 0x0000#16 ∧ s.rxCrc = 0x0000#16 ∧
    s.spanLen = 2#17 ∧ s.span? = some (be16 s.lenReg)

/-- R28, row READ_DATA. -/
abbrev State.ReadDataRow (s : State) : Prop :=
  s.dstate = .readData →
    s.LengthLegal ∧ s.idx.toNat + 1 < s.lenReg.toNat ∧ s.SpanHoldsFrame ∧ s.rxCrc = 0x0000#16

/-- R28, rows WAIT_CRC_1 and WAIT_CRC_2, which are reachable only with the checksum enabled. -/
abbrev State.CrcRow (s : State) : Prop :=
  s.dstate = .waitCrc1 ∨ s.dstate = .waitCrc2 →
    s.cfgCrcEn = true ∧ s.LengthLegal ∧ s.PayloadComplete ∧ s.SpanHoldsFrame ∧
    lo s.rxCrc = 0x00#8 ∧ (s.dstate = .waitCrc1 → s.rxCrc = 0x0000#16)

/-- R28, rows WAIT_END_1 and WAIT_END_2. -/
abbrev State.EndRow (s : State) : Prop :=
  s.dstate = .waitEnd1 ∨ s.dstate = .waitEnd2 →
    s.LengthLegal ∧ s.PayloadComplete ∧ s.SpanHoldsFrame ∧
    (s.cfgCrcEn = true → s.span?.map checksum = some s.rxCrc) ∧
    (s.cfgCrcEn = false → s.rxCrc = 0x0000#16)

/-- The buffers keep their canonical form and their capacity (R20, R21, R22, R31). -/
abbrev State.BuffersFit (s : State) : Prop :=
  s.pbuf.wf = true ∧ s.pbuf.within s.pbufCap = true ∧ s.span.wf = true ∧
  s.span.within s.spanCap = true ∧ s.scratch.wf = true ∧ s.scratch.within s.scratchCap = true

/-- The invariant of every state reachable from construction: the table of R28, a legal configuration (R12),
buffers within their capacity, and no accumulator between computations (R23). -/
abbrev State.Inv (s : State) : Prop :=
  s.cfgMaxPay.toNat ≤ Config.maxPayloadLimit ∧ s.crcAcc = none ∧ s.BuffersFit ∧ s.HuntRow ∧
  s.LengthLoRow ∧ s.CmdRow ∧ s.ReadDataRow ∧ s.CrcRow ∧ s.EndRow

/-! ### What stays the same -/

/-- The configuration registers agree (R7). -/
abbrev SameConfig (s t : State) : Prop :=
  s.cfgHeader = t.cfgHeader ∧ s.cfgTrailer = t.cfgTrailer ∧ s.cfgMaxPay = t.cfgMaxPay ∧
  s.cfgCrcEn = t.cfgCrcEn

/-- The registers of the decoder context agree (R14). -/
abbrev SameRegisters (s t : State) : Prop :=
  s.dstate = t.dstate ∧ s.lenReg = t.lenReg ∧ s.cmdReg = t.cmdReg ∧ s.idx = t.idx ∧
  s.rxCrc = t.rxCrc ∧ s.spanLen = t.spanLen

/-- Every byte of two buffers reads the same. -/
def SameBytes (m n : Memory) : Prop := ∀ i, m.read i = n.read i

/-- The whole decoder context agrees, buffer bytes included (R14). -/
def SameContext (s t : State) : Prop :=
  SameRegisters s t ∧ SameBytes s.pbuf t.pbuf ∧ SameBytes s.span t.span

/-! ### What no host can see -/

/-- Two states that differ at most in stale bytes: `PBUF` at and above `idx`, `SPAN` at and above
`span_len`, and `SCRATCH` (R22, R29). -/
def SameButStale (s t : State) : Prop :=
  SameConfig s t ∧ SameRegisters s t ∧ s.crcAcc = t.crcAcc ∧ s.requests = t.requests ∧
  s.outputs = t.outputs ∧
  (∀ i, i < s.idx.toNat → s.pbuf.read i = t.pbuf.read i) ∧
  (∀ i, i < s.spanLen.toNat → s.span.read i = t.span.read i)

/-- Two outcomes are of one kind, with related next states and equal reasons. -/
def OutcomesAgree {α β φ ρ : Type} (related : α → β → Prop) :
    Host.Outcome α φ ρ → Host.Outcome β φ ρ → Prop
  | .next s, .next t => related s t
  | .fault f, .fault g => f = g
  | .refused f, .refused g => f = g
  | _, _ => False

/-- The decoder states in which the running register of R98 holds the checksum of the span so far. -/
def DState.spanOpen : DState → Bool
  | .waitHeader1 => false
  | .waitHeader2 => false
  | .waitLengthHi => false
  | .waitLengthLo => true
  | .waitCmd => true
  | .readData => true
  | .waitCrc1 => true
  | .waitCrc2 => true
  | .waitEnd1 => false
  | .waitEnd2 => false

/-- The running-register design stands for a state of the core: every field but `SPAN` and `span_len` is
the same, and where the span is open the register holds its checksum (R98). -/
def RunningState.StandsFor (r : RunningState) (s : State) : Prop :=
  r.machine = { s with span := r.machine.span, spanLen := r.machine.spanLen } ∧
  (s.dstate.spanOpen = true → s.span?.map checksum = some r.crcRun)

/-! ### Runs -/

/-- The host issues exactly these requests and the core runs until they are done (R42). -/
def runRequests (rs : List Request) (s : State) : Host.Outcome State Fault Refusal :=
  Sys2Proof.core.run rs.length { s with requests := rs }

/-- The transport feeds a byte stream, one FEED per byte, in arrival order (R33). -/
def feedAll (bytes : List Byte) (s : State) : Host.Outcome State Fault Refusal :=
  runRequests (bytes.map feedRequest) s

/-- The decoder states a byte stream takes the decoder through: the state after each FEED (R102). -/
def visited : List Byte → State → List DState
  | [], _ => []
  | b :: bytes, s =>
    match exec (.feed b) s with
    | .next t => t.dstate :: visited bytes t
    | .fault _ => []
    | .refused _ => []

/-- The row of the opcode table that a FEED runs in a decoder state (R82). -/
def feedRow : DState → Byte → Instr
  | .waitHeader1 => .feedWaitHeader1
  | .waitHeader2 => .feedWaitHeader2
  | .waitLengthHi => .feedWaitLengthHi
  | .waitLengthLo => .feedWaitLengthLo
  | .waitCmd => .feedWaitCmd
  | .readData => .feedReadData
  | .waitCrc1 => .feedWaitCrc1
  | .waitCrc2 => .feedWaitCrc2
  | .waitEnd1 => .feedWaitEnd1
  | .waitEnd2 => .feedWaitEnd2

end Sys2Proof.Machine
end

