-- ==== Sys2Proof/Certificates/Slice0/Obligations.lean ====
section
/-!
DEFINITION. The statements about the core that are given to the provers. Each docstring names the rule or the
section of the spec it formalises.
-/

open Sys2Proof Sys2Proof.Machine

/-! ### Requests and the step -/

/-- A step runs the decoded operation, whole (R3, R42): taking the request is all a step adds to `exec`. -/
def Obligations.StepRunsDecodedRequest : Prop :=
  ∀ (s : State) (r : Request) (rest : List Request) (i : Instr),
    s.requests = r :: rest → decode r = .ok i → step s = exec i { s with requests := rest }

/-- With nothing issued the core holds its state (R101, R123). -/
def Obligations.IdleCoreHoldsItsState : Prop :=
  ∀ s : State, s.requests = [] → step s = .next s

/-- R64: the selectors 0x04..0xFF are the reserved ones, and a request with one is refused. -/
def Obligations.ReservedSelectorIsRefused : Prop :=
  (∀ (opc : Byte) (rest : List Byte),
    decode (opc :: rest) = .error (.reservedSelector opc) ↔ 4 ≤ opc.toNat) ∧
  (∀ (s : State) (opc : Byte) (rest : List Byte) (more : List Request),
    4 ≤ opc.toNat → s.requests = (opc :: rest) :: more →
    step s = .next { s with requests := more, outputs := s.outputs ++ [Output.response .refused] })

/-- R65: the byte count each selector requires, and what happens to every request that is none. -/
def Obligations.MalformedRequestIsRefused : Prop :=
  (∀ rest : List Byte, (∃ i, decode (0x00#8 :: rest) = .ok i) ↔ rest.length = 0) ∧
  (∀ rest : List Byte, (∃ i, decode (0x01#8 :: rest) = .ok i) ↔ rest.length = 1) ∧
  (∀ rest : List Byte, (∃ i, decode (0x02#8 :: rest) = .ok i) ↔
    ∃ c n1 n0 p, rest = c :: n1 :: n0 :: p ∧ p.length = n1.toNat * 256 + n0.toNat) ∧
  (∀ rest : List Byte, (∃ i, decode (0x03#8 :: rest) = .ok i) ↔
    ∃ n3 n2 n1 n0 d, rest = n3 :: n2 :: n1 :: n0 :: d ∧
      d.length = n3.toNat * 16777216 + n2.toNat * 65536 + n1.toNat * 256 + n0.toNat) ∧
  (∀ (s : State) (r : Request) (more : List Request),
    s.requests = r :: more → (∀ i, decode r ≠ .ok i) →
    step s = .next { s with requests := more, outputs := s.outputs ++ [Output.response .refused] })

/-- Decode and encode agree: a well-formed operation's request decodes to it, a FEED.<state> row's request
to the FEED it is a row of (R57, R59 to R62). -/
def Obligations.DecodeOfEncode : Prop :=
  (∀ i : Instr, i.wellFormed = true → decode (Sys2Proof.encode i) = .ok i.requestForm) ∧
  Instr.requestForm .reset = .reset ∧ (∀ b, Instr.requestForm (.feed b) = .feed b) ∧
  (∀ c p, Instr.requestForm (.encode c p) = .encode c p) ∧
  (∀ d, Instr.requestForm (.checksum d) = .checksum d) ∧
  (∀ d b, Instr.requestForm (feedRow d b) = .feed b)

/-- Each request word has one meaning: what decodes is well formed, is one of the four operations and is
encoded by exactly those bytes (R58, R59 to R62). -/
def Obligations.EncodeOfDecode : Prop :=
  ∀ (r : Request) (i : Instr), decode r = .ok i →
    i.wellFormed = true ∧ i.requestForm = i ∧ Sys2Proof.encode i = r

/-- Requests written out from R59 to R62 and 95_test_vectors.md sections 2.1, 2.2 decode to the operations
they stand for. -/
def Obligations.SampleRequestsDecode : Prop :=
  decode [0x00#8] = .ok .reset ∧
  decode [0x01#8, 0xAA#8] = .ok (.feed 0xAA#8) ∧
  decode [0x02#8, 0x10#8, 0x00#8, 0x02#8, 0x02#8, 0x03#8] = .ok (.encode 0x10#8 [0x02#8, 0x03#8]) ∧
  decode [0x03#8, 0x00#8, 0x00#8, 0x00#8, 0x05#8, 0x00#8, 0x03#8, 0x10#8, 0x02#8, 0x03#8] =
    .ok (.checksum [0x00#8, 0x03#8, 0x10#8, 0x02#8, 0x03#8]) ∧
  decodeTableWord 16 0x01AA = some (.feed 0xAA#8)

/-- R57: the codes of the ten states in table order, and the unused codes. -/
def Obligations.DecoderStateCodes : Prop :=
  [DState.waitHeader1, .waitHeader2, .waitLengthHi, .waitLengthLo, .waitCmd, .readData, .waitCrc1,
    .waitCrc2, .waitEnd1, .waitEnd2].map (fun d => d.code.toNat) = [0, 1, 2, 3, 4, 5, 6, 7, 8, 9] ∧
  (∀ d : DState, DState.ofCode d.code = some d) ∧
  (∀ c : BitVec 4, 10 ≤ c.toNat → DState.ofCode c = none)

/-- R63: the byte form of each response and of the Packet event. -/
def Obligations.ResponseByteForms : Prop :=
  Response.ack.bytes = [0x00#8] ∧
  (∀ f : List Byte, f.length ≤ 65544 →
    ∃ l3 l2 l1 l0, (Response.txFrame f).bytes = 0x01#8 :: l3 :: l2 :: l1 :: l0 :: f ∧
      f.length = l3.toNat * 16777216 + l2.toNat * 65536 + l1.toNat * 256 + l0.toNat) ∧
  Response.errPayloadTooLong.bytes = [0x80#8, 0x01#8] ∧
  (∀ v : Word, (Response.crc v).bytes = [0x02#8, hi v, lo v]) ∧
  Response.refused.bytes = [0xFF#8] ∧
  (∀ (c : Byte) (p : List Byte), p.length ≤ 65535 →
    ∃ l1 l0, (Event.packet c p).bytes = 0xE0#8 :: c :: l1 :: l0 :: p ∧
      p.length = l1.toNat * 256 + l0.toNat)

/-! ### Construction and reset -/

/-- R5, with R124 and R125 for the values: construction refuses an illegal `MAX_PAYLOAD`, and otherwise
gives the configuration asked for and the initial context. -/
def Obligations.ConstructionGivesInitialState : Prop :=
  (∀ c, (Config.defaultParams c).maxPayload = 256) ∧
  (∀ p : Params, 65534 < p.maxPayload → construct p = none) ∧
  (∀ p : Params, p.maxPayload ≤ 65534 → ∃ t, construct p = some t ∧
    t.cfgHeader = p.header ∧ t.cfgTrailer = p.trailer ∧ t.cfgMaxPay.toNat = p.maxPayload ∧
    t.cfgCrcEn = p.checksumEnabled ∧ t.dstate = .waitHeader1 ∧ t.lenReg = 0x0000#16 ∧
    t.cmdReg = 0x00#8 ∧ t.idx = 0x0000#16 ∧ t.rxCrc = 0x0000#16 ∧ t.spanLen = 0#17)

/-- The state after reset is the default construction (R10, R11, R12, R125). Its `CFG_CRC_EN` is the
model's choice (notes/assumptions/1.md): the clause about it is no rule of the spec. -/
def Obligations.ResetIsDefaultConstruction : Prop :=
  construct (Config.defaultParams Config.resetChecksumEnabled) = some State.reset ∧
  State.reset.cfgHeader = 0xAA55#16 ∧ State.reset.cfgTrailer = 0x55AA#16 ∧
  State.reset.cfgMaxPay = 256#16 ∧ State.reset.dstate = .waitHeader1 ∧ State.reset.crcAcc = none

/-- The state after reset meets the invariant. -/
def Obligations.ResetMeetsInvariant : Prop := State.reset.Inv

/-- Every constructed instance meets the invariant (R124, R27). -/
def Obligations.ConstructionMeetsInvariant : Prop :=
  ∀ (p : Params) (t : State), construct p = some t → t.Inv

/-- The table of R28 is an invariant of every step. -/
def Obligations.StepKeepsTableOfR28 : Prop :=
  ∀ s t : State, s.Inv → step s = .next t → t.Inv

/-- R28: in every state that meets the invariant the indices are within the buffers (R96). -/
def Obligations.IndicesStayWithinBuffers : Prop :=
  ∀ s : State, s.Inv → s.idx.toNat ≤ s.cfgMaxPay.toNat ∧ s.spanLen.toNat ≤ s.cfgMaxPay.toNat + 3

/-- R27, over every run from construction with any requests. -/
def Obligations.HuntingStatesHoldResetValues : Prop :=
  ∀ (p : Params) (s t : State) (rs : List Request) (k : Nat),
    construct p = some s → Sys2Proof.core.run k { s with requests := rs } = .next t →
    t.dstate = .waitHeader1 ∨ t.dstate = .waitHeader2 ∨ t.dstate = .waitLengthHi →
    t.lenReg = 0x0000#16 ∧ t.cmdReg = 0x00#8 ∧ t.idx = 0x0000#16 ∧ t.rxCrc = 0x0000#16 ∧
    t.spanLen = 0#17

/-- No request sequence stops an instance (R95, R96, R111). -/
def Obligations.NoRunEverStops : Prop :=
  ∀ (p : Params) (s : State) (rs : List Request) (k : Nat),
    construct p = some s → ∃ t, Sys2Proof.core.run k { s with requests := rs } = .next t

/-! ### RESET -/

/-- R104, R105: what RESET writes, and that it writes nothing else. -/
def Obligations.ResetForcesInitialContext : Prop :=
  ∀ s : State, exec .reset s = .next { s with
    dstate := .waitHeader1
    lenReg := 0x0000#16
    cmdReg := 0x00#8
    idx := 0x0000#16
    rxCrc := 0x0000#16
    spanLen := 0#17
    outputs := s.outputs ++ [Output.response Response.ack] }

/-- R126: an instance back in WAIT_HEADER_1 behaves on every later sequence of operations like a newly
constructed one; only stale bytes may differ. -/
def Obligations.BackInHuntBehavesAsNew : Prop :=
  ∀ (p : Params) (n u : State) (rs : List Request) (k : Nat),
    construct p = some n → SameConfig u n → u.Inv → u.dstate = .waitHeader1 →
    OutcomesAgree SameButStale
      (Sys2Proof.core.run k { u with requests := rs, outputs := [] })
      (Sys2Proof.core.run k { n with requests := rs, outputs := [] })

/-! ### FEED, one statement per decoder state -/

/-- FEED runs the row of the decoder state it began in (R82); the row's words are FEED's own (R57, R60),
and the model takes a row met in another state as the FEED it spells (notes/assumptions/4.md). -/
def Obligations.FeedRunsTheRowOfItsState : Prop :=
  ∀ (b : Byte) (s : State), exec (.feed b) s = exec (feedRow s.dstate b) s ∧
    ∀ d : DState, exec (feedRow d b) s = exec (.feed b) s

/-- R95: FEED answers a next state in every state of the invariant, with the response `Ack`. So does every
row of it, and a row met in a state not its own by the model's reading (notes/assumptions/4.md). -/
def Obligations.FeedIsTotal : Prop :=
  ∀ (b : Byte) (s : State) (i : Instr), s.Inv → (i = .feed b ∨ ∃ d, i = feedRow d b) →
    ∃ t, exec i s = .next t ∧ t.Inv ∧ t.responses = s.responses ++ [Response.ack]

/-- R84. -/
def Obligations.FeedInWaitHeader1 : Prop :=
  ∀ (b : Byte) (s : State) (i : Instr), (i = .feed b ∨ i = .feedWaitHeader1 b) →
    s.dstate = .waitHeader1 →
    exec i s = .next { s with
      dstate := if b = hi s.cfgHeader then .waitHeader2 else .waitHeader1
      outputs := s.outputs ++ [Output.response Response.ack] }

/-- R85; the abort is HUNT (R83) and consumes the byte (R97). -/
def Obligations.FeedInWaitHeader2 : Prop :=
  ∀ (b : Byte) (s : State) (i : Instr), (i = .feed b ∨ i = .feedWaitHeader2 b) →
    s.dstate = .waitHeader2 →
    exec i s = .next (if b = lo s.cfgHeader then
      { s with dstate := .waitLengthHi, outputs := s.outputs ++ [Output.response Response.ack] }
    else
      { s with
        dstate := .waitHeader1
        lenReg := 0x0000#16
        cmdReg := 0x00#8
        idx := 0x0000#16
        rxCrc := 0x0000#16
        spanLen := 0#17
        outputs := s.outputs ++ [Output.response Response.ack] })

/-- R86. -/
def Obligations.FeedInWaitLengthHi : Prop :=
  ∀ (b : Byte) (s : State) (i : Instr), (i = .feed b ∨ i = .feedWaitLengthHi b) →
    s.dstate = .waitLengthHi →
    ∃ t, exec i s = .next t ∧
      t = { s with
        lenReg := join b (lo s.lenReg)
        span := t.span
        spanLen := 1#17
        dstate := .waitLengthLo
        outputs := s.outputs ++ [Output.response Response.ack] } ∧
      t.span.read 0 = some b ∧ ∀ a, a ≠ 0 → t.span.read a = s.span.read a

/-- R87's pseudocode. The one length on which R87 disagrees with itself, 0xFFFF with `CFG_MAXPAY` = 65534, is
taken as legal: the model's reading (notes/assumptions/18.md). In a state whose `span_len` lies outside the buffer, which no run reaches, the FEED stops
instead: see `OutsideTheBuffersFeedStops`. -/
def Obligations.FeedInWaitLengthLo : Prop :=
  ∀ (b : Byte) (s : State) (i : Instr), (i = .feed b ∨ i = .feedWaitLengthLo b) →
    s.dstate = .waitLengthLo → s.spanLen.toNat < s.cfgMaxPay.toNat + 3 →
    ∃ t, exec i s = .next t ∧
      t.span.read s.spanLen.toNat = some b ∧
      (∀ a, a ≠ s.spanLen.toNat → t.span.read a = s.span.read a) ∧
      (1 ≤ (join (hi s.lenReg) b).toNat ∧ (join (hi s.lenReg) b).toNat ≤ s.cfgMaxPay.toNat + 1 →
        t = { s with
          lenReg := join (hi s.lenReg) b
          span := t.span
          spanLen := s.spanLen + 1#17
          dstate := .waitCmd
          outputs := s.outputs ++ [Output.response Response.ack] }) ∧
      (¬ (1 ≤ (join (hi s.lenReg) b).toNat ∧
          (join (hi s.lenReg) b).toNat ≤ s.cfgMaxPay.toNat + 1) →
        t = { s with
          dstate := .waitHeader1
          lenReg := 0x0000#16
          cmdReg := 0x00#8
          idx := 0x0000#16
          rxCrc := 0x0000#16
          span := t.span
          spanLen := 0#17
          outputs := s.outputs ++ [Output.response Response.ack] })

/-- R88. -/
def Obligations.FeedInWaitCmd : Prop :=
  ∀ (b : Byte) (s : State) (i : Instr), (i = .feed b ∨ i = .feedWaitCmd b) →
    s.dstate = .waitCmd → s.spanLen.toNat < s.cfgMaxPay.toNat + 3 →
    ∃ t, exec i s = .next t ∧
      t.span.read s.spanLen.toNat = some b ∧
      (∀ a, a ≠ s.spanLen.toNat → t.span.read a = s.span.read a) ∧
      t = { s with
        cmdReg := b
        span := t.span
        spanLen := s.spanLen + 1#17
        idx := 0x0000#16
        dstate :=
          if s.lenReg = 0x0001#16 then (if s.cfgCrcEn then .waitCrc1 else .waitEnd1) else .readData
        outputs := s.outputs ++ [Output.response Response.ack] }

/-- R89. The comparison is exact: the incremented index equals `len_reg - 1`. -/
def Obligations.FeedInReadData : Prop :=
  ∀ (b : Byte) (s : State) (i : Instr), (i = .feed b ∨ i = .feedReadData b) →
    s.dstate = .readData → s.idx.toNat < s.cfgMaxPay.toNat →
    s.spanLen.toNat < s.cfgMaxPay.toNat + 3 →
    ∃ t, exec i s = .next t ∧
      t.pbuf.read s.idx.toNat = some b ∧
      (∀ a, a ≠ s.idx.toNat → t.pbuf.read a = s.pbuf.read a) ∧
      t.span.read s.spanLen.toNat = some b ∧
      (∀ a, a ≠ s.spanLen.toNat → t.span.read a = s.span.read a) ∧
      t = { s with
        pbuf := t.pbuf
        span := t.span
        spanLen := s.spanLen + 1#17
        idx := s.idx + 1#16
        dstate :=
          if s.idx.toNat + 2 = s.lenReg.toNat then (if s.cfgCrcEn then .waitCrc1 else .waitEnd1)
          else .readData
        outputs := s.outputs ++ [Output.response Response.ack] }

/-- R90. -/
def Obligations.FeedInWaitCrc1 : Prop :=
  ∀ (b : Byte) (s : State) (i : Instr), (i = .feed b ∨ i = .feedWaitCrc1 b) →
    s.dstate = .waitCrc1 →
    exec i s = .next { s with
      rxCrc := join b (lo s.rxCrc)
      dstate := .waitCrc2
      outputs := s.outputs ++ [Output.response Response.ack] }

/-- R91, where the span up to `span_len` has been written. `crc_acc` does not outlive the computation
(R23). -/
def Obligations.FeedInWaitCrc2 : Prop :=
  ∀ (b : Byte) (s : State) (i : Instr) (d : List Byte), (i = .feed b ∨ i = .feedWaitCrc2 b) →
    s.dstate = .waitCrc2 → s.spanLen.toNat ≤ s.cfgMaxPay.toNat + 3 →
    s.span.readRange s.spanLen.toNat = some d →
    exec i s = .next (if checksum d = join (hi s.rxCrc) b then
      { s with
        rxCrc := join (hi s.rxCrc) b
        crcAcc := none
        dstate := .waitEnd1
        outputs := s.outputs ++ [Output.response Response.ack] }
    else
      { s with
        dstate := .waitHeader1
        lenReg := 0x0000#16
        cmdReg := 0x00#8
        idx := 0x0000#16
        rxCrc := 0x0000#16
        spanLen := 0#17
        crcAcc := none
        outputs := s.outputs ++ [Output.response Response.ack] })

/-- R92. -/
def Obligations.FeedInWaitEnd1 : Prop :=
  ∀ (b : Byte) (s : State) (i : Instr), (i = .feed b ∨ i = .feedWaitEnd1 b) →
    s.dstate = .waitEnd1 →
    exec i s = .next (if b = hi s.cfgTrailer then
      { s with dstate := .waitEnd2, outputs := s.outputs ++ [Output.response Response.ack] }
    else
      { s with
        dstate := .waitHeader1
        lenReg := 0x0000#16
        cmdReg := 0x00#8
        idx := 0x0000#16
        rxCrc := 0x0000#16
        spanLen := 0#17
        outputs := s.outputs ++ [Output.response Response.ack] })

/-- R93, with the event before the response (R113); the payload bytes are read before HUNT runs. -/
def Obligations.FeedInWaitEnd2 : Prop :=
  ∀ (b : Byte) (s : State) (i : Instr), (i = .feed b ∨ i = .feedWaitEnd2 b) →
    s.dstate = .waitEnd2 →
    (∀ p, b = lo s.cfgTrailer → s.idx.toNat ≤ s.cfgMaxPay.toNat →
      s.pbuf.readRange s.idx.toNat = some p →
      exec i s = .next { s with
        dstate := .waitHeader1
        lenReg := 0x0000#16
        cmdReg := 0x00#8
        idx := 0x0000#16
        rxCrc := 0x0000#16
        spanLen := 0#17
        outputs := s.outputs ++ [Output.event (.packet s.cmdReg p), Output.response .ack] }) ∧
    (b ≠ lo s.cfgTrailer →
      exec i s = .next { s with
        dstate := .waitHeader1
        lenReg := 0x0000#16
        cmdReg := 0x00#8
        idx := 0x0000#16
        rxCrc := 0x0000#16
        spanLen := 0#17
        outputs := s.outputs ++ [Output.response Response.ack] })

/-- Where the decoder would use a buffer index the buffer does not have (R20, R21, R31), or a byte that
nothing has written (R29), it stops by name. The last clause: the invariant rules all of these out (R96).
The stops are the model's choice (notes/assumptions/2.md and 3.md). -/
def Obligations.OutsideTheBuffersFeedStops : Prop :=
  ∀ (b : Byte) (s : State),
    (s.dstate = .waitLengthLo ∨ s.dstate = .waitCmd → s.cfgMaxPay.toNat + 3 ≤ s.spanLen.toNat →
      exec (.feed b) s = .fault .spanOutside) ∧
    (s.dstate = .readData → s.cfgMaxPay.toNat ≤ s.idx.toNat →
      exec (.feed b) s = .fault .pbufOutside) ∧
    (s.dstate = .readData → s.idx.toNat < s.cfgMaxPay.toNat →
      s.cfgMaxPay.toNat + 3 ≤ s.spanLen.toNat → exec (.feed b) s = .fault .spanOutside) ∧
    (s.dstate = .waitCrc2 → s.cfgMaxPay.toNat + 3 < s.spanLen.toNat →
      exec (.feed b) s = .fault .spanOutside) ∧
    (s.dstate = .waitCrc2 → s.spanLen.toNat ≤ s.cfgMaxPay.toNat + 3 →
      s.span.readRange s.spanLen.toNat = none → exec (.feed b) s = .fault .spanUnwritten) ∧
    (s.dstate = .waitEnd2 → b = lo s.cfgTrailer → s.cfgMaxPay.toNat < s.idx.toNat →
      exec (.feed b) s = .fault .pbufOutside) ∧
    (s.dstate = .waitEnd2 → b = lo s.cfgTrailer → s.idx.toNat ≤ s.cfgMaxPay.toNat →
      s.pbuf.readRange s.idx.toNat = none → exec (.feed b) s = .fault .pbufUnwritten) ∧
    (s.Inv →
      (s.dstate = .waitLengthLo ∨ s.dstate = .waitCmd → s.spanLen.toNat < s.cfgMaxPay.toNat + 3) ∧
      (s.dstate = .readData →
        s.idx.toNat < s.cfgMaxPay.toNat ∧ s.spanLen.toNat < s.cfgMaxPay.toNat + 3) ∧
      (s.dstate = .waitCrc2 →
        s.spanLen.toNat ≤ s.cfgMaxPay.toNat + 3 ∧ s.span.readRange s.spanLen.toNat ≠ none) ∧
      (s.dstate = .waitEnd2 →
        s.idx.toNat ≤ s.cfgMaxPay.toNat ∧ s.pbuf.readRange s.idx.toNat ≠ none))

/-! ### CHECKSUM and the algorithm -/

/-- R74: the response is the checksum of the operand, nothing else changes, and the accumulator exists only
during the computation (R23). -/
def Obligations.ChecksumAnswersTheChecksum : Prop :=
  ∀ (d : List Byte) (s : State), exec (.checksum d) s = .next { s with
    crcAcc := none
    outputs := s.outputs ++ [Output.response (.crc (checksum d))] }

/-- R69 in exact arithmetic on natural numbers: XOR the byte into the high byte, then eight rounds. -/
def Obligations.CrcStepIsEightRounds : Prop :=
  ∀ (acc : Word) (b : Byte), (crcStep acc b).toNat =
    Nat.iterate (fun a => if 32768 ≤ a then (a * 2 % 65536) ^^^ 0x1021 else a * 2) 8
      (acc.toNat ^^^ (b.toNat * 256))

/-- R70, R71: the empty checksum, one more byte, and the fold over a concatenation. -/
def Obligations.ChecksumIsALeftFold : Prop :=
  checksum [] = 0xFFFF#16 ∧
  (∀ (d : List Byte) (b : Byte), checksum (d ++ [b]) = crcStep (checksum d) b) ∧
  (∀ d e : List Byte, checksum (d ++ e) = e.foldl crcStep (checksum d))

/-- Check values of R72 and 95_test_vectors.md section 2.1. -/
def Obligations.ChecksumCheckValues : Prop :=
  checksum [0x31#8, 0x32#8, 0x33#8, 0x34#8, 0x35#8, 0x36#8, 0x37#8, 0x38#8, 0x39#8] = 0x29B1#16 ∧
  checksum [0x00#8, 0x03#8, 0x10#8, 0x02#8, 0x03#8] = 0x9FB2#16 ∧
  checksum [0x00#8, 0x01#8, 0x01#8] = 0xEF8C#16 ∧
  checksum [0xFF#8] = 0xFF00#16 ∧ checksum [0xFF#8, 0xFF#8] = 0x0000#16

/-- R74, corner cases: a sequence followed by its own checksum, big-endian, has checksum 0. -/
def Obligations.ChecksumCancelsItself : Prop :=
  ∀ d : List Byte, checksum (d ++ be16 (checksum d)) = 0x0000#16

/-- R135, as an algebraic fact: changing one byte of a sequence changes its checksum. -/
def Obligations.OneByteChangeChangesChecksum : Prop :=
  ∀ (x y : List Byte) (a b : Byte), a ≠ b → checksum (x ++ a :: y) ≠ checksum (x ++ b :: y)

/-! ### ENCODE -/

/-- R76: the frame ENCODE answers with, field by field, and what it writes: the scratch bytes of the frame
and nothing else. -/
def Obligations.EncodeAnswersTheFrame : Prop :=
  ∀ (c : Byte) (p f : List Byte) (s : State), p.length ≤ s.cfgMaxPay.toNat →
    f = [hi s.cfgHeader, lo s.cfgHeader] ++ be16 (BitVec.ofNat 16 (1 + p.length)) ++ [c] ++ p ++
      (if s.cfgCrcEn then be16 (checksum (be16 (BitVec.ofNat 16 (1 + p.length)) ++ [c] ++ p)) else []) ++
      [hi s.cfgTrailer, lo s.cfgTrailer] →
    ∃ t, exec (.encode c p) s = .next t ∧
      t = { s with
        scratch := t.scratch
        crcAcc := if s.cfgCrcEn then none else s.crcAcc
        outputs := s.outputs ++ [Output.response (.txFrame f)] } ∧
      (∀ a, a < f.length → t.scratch.read a = f[a]?) ∧
      (∀ a, f.length ≤ a → t.scratch.read a = s.scratch.read a)

/-- R77: a payload that is too long changes nothing and is answered `Err(PayloadTooLong)`. -/
def Obligations.EncodeRejectsLongPayload : Prop :=
  ∀ (c : Byte) (p : List Byte) (s : State), s.cfgMaxPay.toNat < p.length →
    exec (.encode c p) s = .next { s with outputs := s.outputs ++ [Output.response .errPayloadTooLong] }

/-- R47, R9: the length of a frame, and that it fits the scratch buffer. -/
def Obligations.FrameLengthIsPayloadPlusOverhead : Prop :=
  (∀ (c : Byte) (p : List Byte) (s : State),
    (frame s.cfgHeader s.cfgTrailer s.cfgCrcEn c p).length =
      p.length + (if s.cfgCrcEn then 9 else 7)) ∧
  (∀ (c : Byte) (p : List Byte) (s : State), p.length ≤ s.cfgMaxPay.toNat →
    (frame s.cfgHeader s.cfgTrailer s.cfgCrcEn c p).length ≤ s.scratchCap)

/-- R48, R81: the length field of every frame ENCODE returns is `1 + len(p)`, within 1..MAX_PAYLOAD+1. -/
def Obligations.EncodedFrameHasLegalLength : Prop :=
  ∀ (c : Byte) (p f : List Byte) (s t : State), s.cfgMaxPay.toNat ≤ 65534 →
    exec (.encode c p) s = .next t → t.outputs = s.outputs ++ [Output.response (.txFrame f)] →
    ∃ l1 l0, f[2]? = some l1 ∧ f[3]? = some l0 ∧ (join l1 l0).toNat = 1 + p.length ∧
      (join l1 l0).toNat ≤ s.cfgMaxPay.toNat + 1

/-- The end-to-end frame of 95_test_vectors.md section 1.2, and the zero-payload frame of 1.3. -/
def Obligations.EndToEndFrame : Prop :=
  frame 0xAA55#16 0x55AA#16 true 0x10#8 [0x02#8, 0x03#8] =
    [0xAA#8, 0x55#8, 0x00#8, 0x03#8, 0x10#8, 0x02#8, 0x03#8, 0x9F#8, 0xB2#8, 0x55#8, 0xAA#8] ∧
  frame 0xAA55#16 0x55AA#16 true 0x01#8 [] =
    [0xAA#8, 0x55#8, 0x00#8, 0x01#8, 0x01#8, 0xEF#8, 0x8C#8, 0x55#8, 0xAA#8]

/-- R43, R80: ENCODE and CHECKSUM answer the same on instances that agree in their configuration alone, and
neither changes the decoder context. -/
def Obligations.EncodeAndChecksumIgnoreTheContext : Prop :=
  ∀ (i : Instr) (s u : State), ((∃ c p, i = .encode c p) ∨ ∃ d, i = .checksum d) → SameConfig s u →
    ∃ r t v, exec i s = .next t ∧ exec i u = .next v ∧
      t.outputs = s.outputs ++ [Output.response r] ∧ v.outputs = u.outputs ++ [Output.response r] ∧
      SameContext s t ∧ SameContext u v

/-! ### Rules about every operation -/

/-- R7: no operation, and no step, changes the configuration. -/
def Obligations.ConfigurationNeverChanges : Prop :=
  (∀ (i : Instr) (s t : State), exec i s = .next t → SameConfig s t) ∧
  (∀ s t : State, step s = .next t → SameConfig s t)

/-- R39, R43, R105: only ENCODE writes the scratch buffer, and no operation touches the pending requests. -/
def Obligations.OnlyEncodeWritesScratch : Prop :=
  ∀ (i : Instr) (s t : State), exec i s = .next t →
    t.requests = s.requests ∧
    ((∀ c p, i ≠ .encode c p) → ∀ a, t.scratch.read a = s.scratch.read a)

/-- R3, R113: every operation gives exactly one response, after at most one event, and an event comes only
from a FEED in WAIT_END_2 of `trailer_lo`. -/
def Obligations.OneResponsePerOperation : Prop :=
  ∀ (i : Instr) (s t : State), exec i s = .next t →
    ∃ (events : List Event) (r : Response),
      t.outputs = s.outputs ++ events.map Output.event ++ [Output.response r] ∧ events.length ≤ 1 ∧
      (events ≠ [] → s.dstate = .waitEnd2 ∧ i.requestForm = .feed (lo s.cfgTrailer))

/-- R108, R112: PayloadTooLong is answered by ENCODE of a payload that is too long, and by nothing else; no
other error is ever reported. -/
def Obligations.OnlyLongPayloadIsReported : Prop :=
  ∀ (i : Instr) (s t : State), exec i s = .next t →
    (t.outputs = s.outputs ++ [Output.response .errPayloadTooLong] ↔
      ∃ c p, i = .encode c p ∧ s.cfgMaxPay.toNat < p.length)

/-- R93, R113, R28: whatever a FEED delivers is a whole valid frame: the declared length, within the bound,
and with the checksum of its span where the checksum is enabled. -/
def Obligations.OnlyValidFramesAreDelivered : Prop :=
  ∀ (b c : Byte) (p : List Byte) (s t : State), s.Inv → exec (.feed b) s = .next t →
    t.outputs = s.outputs ++ [Output.event (.packet c p), Output.response .ack] →
    s.dstate = .waitEnd2 ∧ b = lo s.cfgTrailer ∧ c = s.cmdReg ∧
    p.length + 1 = s.lenReg.toNat ∧ p.length ≤ s.cfgMaxPay.toNat ∧
    (s.cfgCrcEn = true → s.rxCrc = checksum (be16 s.lenReg ++ c :: p))

/-! ### Byte streams -/

/-- R102: the states a frame takes the decoder through, its one event on the last FEED, and the end in
WAIT_HEADER_1. -/
def Obligations.FrameVisitsTheStatesInOrder : Prop :=
  ∀ (c : Byte) (p f : List Byte) (s : State), s.cfgMaxPay.toNat ≤ 65534 →
    p.length ≤ s.cfgMaxPay.toNat → s.dstate = .waitHeader1 →
    f = frame s.cfgHeader s.cfgTrailer s.cfgCrcEn c p →
    visited f s =
      [DState.waitHeader2, DState.waitLengthHi, DState.waitLengthLo, DState.waitCmd] ++
      List.replicate p.length DState.readData ++
      (if s.cfgCrcEn then [DState.waitCrc1, DState.waitCrc2] else []) ++
      [DState.waitEnd1, DState.waitEnd2, DState.waitHeader1] ∧
    (∃ t, feedAll f.dropLast s = .next t ∧ t.events = s.events) ∧
    (∃ t, feedAll f s = .next t ∧ t.events = s.events ++ [Event.packet c p] ∧ t.dstate = .waitHeader1)

/-- R103: a decoder with the encoder's configuration, in WAIT_HEADER_1, turns ENCODE's frame back into the
one packet; in WAIT_HEADER_2 it does not take the frame as sent. -/
def Obligations.EncodedFrameRoundTrips : Prop :=
  ∀ (c : Byte) (p f : List Byte) (s s0 t0 : State), s.cfgMaxPay.toNat ≤ 65534 → SameConfig s0 s →
    exec (.encode c p) s0 = .next t0 → t0.outputs = s0.outputs ++ [Output.response (.txFrame f)] →
    (s.dstate = .waitHeader1 →
      ∃ t, feedAll f s = .next t ∧ t.dstate = .waitHeader1 ∧ t.events = s.events ++ [Event.packet c p]) ∧
    (s.dstate = .waitHeader2 → hi s.cfgHeader ≠ lo s.cfgHeader →
      ∃ t, feedAll (f.take 1) s = .next t ∧ t.dstate = .waitHeader1 ∧ t.events = s.events) ∧
    (s.dstate = .waitHeader2 → hi s.cfgHeader = lo s.cfgHeader →
      ∃ t, feedAll (f.take 2) s = .next t ∧ t.dstate = .waitLengthLo ∧
        hi t.lenReg = lo s.cfgHeader)

/-- R134: noise without `header_hi` leaves the decoder in WAIT_HEADER_1 and emits nothing, and a frame after
it is delivered. -/
def Obligations.NoiseBeforeAFrameIsHarmless : Prop :=
  ∀ (noise : List Byte) (c : Byte) (p : List Byte) (s : State), s.cfgMaxPay.toNat ≤ 65534 →
    s.dstate = .waitHeader1 → (∀ x ∈ noise, x ≠ hi s.cfgHeader) → p.length ≤ s.cfgMaxPay.toNat →
    (∃ t, feedAll noise s = .next t ∧ t.dstate = .waitHeader1 ∧ t.events = s.events) ∧
    (∃ t, feedAll (noise ++ frame s.cfgHeader s.cfgTrailer s.cfgCrcEn c p) s = .next t ∧
      t.dstate = .waitHeader1 ∧ t.events = s.events ++ [Event.packet c p])

/-- R135, R69, R70, R91: with the checksum enabled, a frame one of whose command or payload bytes was changed on the way
emits nothing. -/
def Obligations.OneByteCorruptionIsNeverDelivered : Prop :=
  ∀ (c a b : Byte) (p x y : List Byte) (s : State), s.cfgMaxPay.toNat ≤ 65534 →
    s.cfgCrcEn = true → s.dstate = .waitHeader1 → p.length ≤ s.cfgMaxPay.toNat →
    c :: p = x ++ a :: y → a ≠ b →
    ∃ t, feedAll (be16 s.cfgHeader ++ be16 (lengthField p) ++ (x ++ b :: y) ++
        be16 (checksum (frameSpan c p)) ++ be16 s.cfgTrailer) s = .next t ∧ t.events = s.events

/-- R135, 90_conflicts.md C5: a corrupted length field can go undetected. The vector of 95_test_vectors.md
section 3.7, on the default configuration with the checksum enabled. -/
def Obligations.LengthCorruptionCanBeDelivered : Prop :=
  ∀ s : State, construct (Config.defaultParams true) = some s →
    ∃ t, feedAll [0xAA#8, 0x55#8, 0x00#8, 0x01#8, 0x10#8, 0xED#8, 0x9C#8, 0x55#8, 0xAA#8, 0x11#8,
        0x22#8, 0x33#8, 0x44#8, 0xC8#8, 0x27#8, 0x55#8, 0xAA#8] s = .next t ∧
      t.events = [.packet 0x10#8 []] ∧ t.dstate = .waitHeader2

/-- R133: where `trailer_lo` = `header_hi`, frames that follow each other with no gap after an abort are all
lost, and a gap byte other than `header_lo` ends the loss. -/
def Obligations.GapFreeFramesAreLostAfterAnAbort : Prop :=
  ∀ (bodies : List (List Byte)) (s : State), s.dstate = .waitHeader2 →
    hi s.cfgHeader ≠ lo s.cfgHeader → lo s.cfgTrailer = hi s.cfgHeader →
    (∀ body ∈ bodies, ∀ x ∈ body, x ≠ hi s.cfgHeader) →
    (∃ t, feedAll (bodies.flatMap fun body => hi s.cfgHeader :: body ++ [lo s.cfgTrailer]) s = .next t ∧
      t.dstate = .waitHeader2 ∧ t.events = s.events) ∧
    (∀ g, g ≠ lo s.cfgHeader →
      ∃ t, feedAll ((bodies.flatMap fun body => hi s.cfgHeader :: body ++ [lo s.cfgTrailer]) ++ [g]) s =
        .next t ∧ t.dstate = .waitHeader1 ∧ t.events = s.events)

/-- R132: after a delivery, the first five FEEDs leave every byte of `PBUF` as it is. -/
def Obligations.FiveFeedsLeaveThePayload : Prop :=
  ∀ (bytes : List Byte) (s : State), s.Inv → s.dstate = .waitHeader1 → bytes.length ≤ 5 →
    ∃ t, feedAll bytes s = .next t ∧ ∀ a, t.pbuf.read a = s.pbuf.read a

/-! ### What no host can see -/

/-- R29: no response and no event depends on a stale buffer byte: two states that differ in nothing else
step alike, with the same outputs. -/
def Obligations.StaleBytesAreUnobservable : Prop :=
  ∀ s u : State, SameButStale s u → OutcomesAgree SameButStale (step s) (step u)

/-- R98: the running-register decoder gives the same responses and events as the span buffer, FEED by FEED,
from every state of the invariant. -/
def Obligations.RunningRegisterIsEquivalent : Prop :=
  ∀ (b : Byte) (s : State) (r : RunningState), s.Inv → r.StandsFor s →
    ∃ t q, exec (.feed b) s = .next t ∧ execFeedRunning b r = .next q ∧ q.StandsFor t ∧
      q.machine.outputs = t.outputs

/-- R8, R121: a step of one core leaves every other as it is. -/
def Obligations.CoresShareNoState : Prop :=
  ∀ (y z : Fleet) (k : Nat), y.stepAt k = .next z →
    z.members.length = y.members.length ∧ ∀ j, j ≠ k → z.members[j]? = y.members[j]?

/-- R67: what each pseudo-instruction issues on the instance the program runs on. The frame of `FEEDS @tx`
is that of the last `TxFrame` among the instance's responses: with none there, nothing is issued. Two
points are the model's choice and no rule of the spec: that responses of an earlier instance do not count
(notes/assumptions/19.md), and that a line is expanded when it is issued, from the responses given by then,
also with an ENCODE still pending (notes/assumptions/21.md). -/
def Obligations.PseudoInstructionsExpand : Prop :=
  (∀ (bs : List Byte) (s : State), (Line.feeds bs).issue s =
    some { s with requests := s.requests ++ bs.map fun b => [0x01#8, b] }) ∧
  (∀ (f : List Byte) (s : State) (before later : List Response),
    s.responses = before ++ Response.txFrame f :: later → (∀ g, Response.txFrame g ∉ later) →
    lastFrame s.responses = some f ∧
    Line.feedsTx.issue s = some { s with requests := s.requests ++ f.map fun b => [0x01#8, b] }) ∧
  (∀ s : State, (∀ g, Response.txFrame g ∉ s.responses) →
    lastFrame s.responses = none ∧ Line.feedsTx.issue s = some s) ∧
  (∀ (bytes : List Byte) (s : State), (Line.raw bytes).issue s =
    some { s with requests := s.requests ++ [bytes] })
end

