-- ==== Sys2Proof/Laws/Operands.lean ====
section
/-!
SUPPORT. The byte and count helpers: what each field of a joined word is, and that a big-endian count reads
back.
-/

namespace Sys2Proof

@[simp] theorem hi_join (h l : Byte) : hi (join h l) = h := by
  apply BitVec.eq_of_getLsbD_eq
  intro i hi
  simp only [Sys2Proof.hi, join, BitVec.getLsbD_extractLsb', BitVec.getLsbD_append]
  have : ¬ (8 + i < 8) := by omega
  simp [hi]

@[simp] theorem lo_join (h l : Byte) : lo (join h l) = l := by
  apply BitVec.eq_of_getLsbD_eq
  intro i hi
  simp only [lo, join, BitVec.getLsbD_extractLsb', BitVec.getLsbD_append]
  simp [hi]

@[simp] theorem join_hi_lo (v : Word) : join (hi v) (lo v) = v := by
  apply BitVec.eq_of_getLsbD_eq
  intro i h
  simp only [join, hi, lo, BitVec.getLsbD_append, BitVec.getLsbD_extractLsb']
  by_cases h8 : i < 8
  · simp [h8]
  · simp only [h8, if_false]
    have e : 8 + (i - 8) = i := by omega
    have l : i - 8 < 8 := by omega
    simp [e, l]

theorem join_toNat (h l : Byte) : (join h l).toNat = h.toNat * 256 + l.toNat := by
  have := l.isLt
  simp only [join, BitVec.toNat_append, Nat.shiftLeft_eq]
  rw [← Nat.shiftLeft_eq, ← Nat.shiftLeft_add_eq_or_of_lt this, Nat.shiftLeft_eq]

@[simp] theorem hi_setHi (r : Word) (b : Byte) : hi (setHi r b) = b := by simp [setHi]
@[simp] theorem lo_setHi (r : Word) (b : Byte) : lo (setHi r b) = lo r := by simp [setHi]
@[simp] theorem hi_setLo (r : Word) (b : Byte) : hi (setLo r b) = hi r := by simp [setLo]
@[simp] theorem lo_setLo (r : Word) (b : Byte) : lo (setLo r b) = b := by simp [setLo]

@[simp] theorem be16_length (v : Word) : (be16 v).length = 2 := rfl
@[simp] theorem count16_length (n : Nat) : (count16 n).length = 2 := rfl
@[simp] theorem count32_length (n : Nat) : (count32 n).length = 4 := rfl

theorem byteOf_toNat (k n : Nat) : (byteOf k n).toNat = n / 256 ^ k % 256 := by
  simp [byteOf, BitVec.toNat_ofNat]

theorem countValue_count16 (n : Nat) (h : n ≤ 65535) : countValue (count16 n) = n := by
  simp only [countValue, count16, List.foldl_cons, List.foldl_nil, byteOf_toNat]
  omega

theorem countValue_count32 (n : Nat) (h : n ≤ 4294967295) : countValue (count32 n) = n := by
  simp only [countValue, count32, List.foldl_cons, List.foldl_nil, byteOf_toNat]
  omega

theorem byteOf_eq {k n : Nat} {b : Byte} (h : n / 256 ^ k % 256 = b.toNat) : byteOf k n = b := by
  apply BitVec.eq_of_toNat_eq
  rw [byteOf_toNat, h]

theorem count16_countValue (b1 b0 : Byte) : count16 (countValue [b1, b0]) = [b1, b0] := by
  have h1 := b1.isLt
  have h0 := b0.isLt
  simp only [count16, countValue, List.foldl_cons, List.foldl_nil]
  rw [byteOf_eq (b := b1) (by omega), byteOf_eq (b := b0) (by omega)]

theorem count32_countValue (b3 b2 b1 b0 : Byte) :
    count32 (countValue [b3, b2, b1, b0]) = [b3, b2, b1, b0] := by
  have h3 := b3.isLt
  have h2 := b2.isLt
  have h1 := b1.isLt
  have h0 := b0.isLt
  simp only [count32, countValue, List.foldl_cons, List.foldl_nil]
  rw [byteOf_eq (b := b3) (by omega), byteOf_eq (b := b2) (by omega),
    byteOf_eq (b := b1) (by omega), byteOf_eq (b := b0) (by omega)]

end Sys2Proof
end

