-- ==== Sys2Proof/Laws/Assembler.lean ====
section
/-!
SUPPORT. What `lastFrame` finds and what a line issues, said once.
-/

namespace Sys2Proof.Machine

/-- A later frame hides every earlier one. -/
theorem lastFrame_append (rs qs : List Response) :
    lastFrame (rs ++ qs) = (lastFrame qs).or (lastFrame rs) := by
  induction rs with
  | nil => simp [lastFrame]
  | cons r rs ih =>
    cases r with
    | txFrame f =>
      simp only [List.cons_append, lastFrame, ih]
      cases lastFrame qs <;> cases lastFrame rs <;> rfl
    | ack => exact ih
    | errPayloadTooLong => exact ih
    | crc v => exact ih
    | refused => exact ih

/-- There is no frame exactly where no response is a `TxFrame`. -/
theorem lastFrame_eq_none_iff (rs : List Response) :
    lastFrame rs = none ↔ ∀ g, Response.txFrame g ∉ rs := by
  induction rs with
  | nil => simp [lastFrame]
  | cons r rs ih =>
    cases r with
    | txFrame f =>
      simp only [lastFrame]
      constructor
      · cases lastFrame rs <;> intro h <;> cases h
      · intro h
        exact absurd List.mem_cons_self (h f)
    | ack => simpa [lastFrame] using ih
    | errPayloadTooLong => simpa [lastFrame] using ih
    | crc v => simpa [lastFrame] using ih
    | refused => simpa [lastFrame] using ih

/-- A line other than `.config` issues its requests and changes nothing else. -/
theorem Line.issue_of_not_config {l : Line} (h : ∀ p, l ≠ .config p) (s : State) :
    l.issue s = some (s.issue (l.requests (lastFrame s.responses))) := by
  cases l with
  | config p => exact absurd rfl (h p)
  | reset => rfl
  | feed b => rfl
  | encode c p => rfl
  | checksum d => rfl
  | feeds bs => rfl
  | feedsTx => rfl
  | raw bytes => rfl

/-- The request of a line with more payload than the count field can hold is malformed. -/
theorem decode_encode_of_long_payload (c : Byte) {p : List Byte} (h : 65535 < p.length) :
    decode (Sys2Proof.encode (.encode c p)) = .error (.malformed opcEncode) := by
  have hn : p.length ≠ countValue (count16 p.length) := by
    simp only [countValue, count16, List.foldl_cons, List.foldl_nil, byteOf_toNat]
    omega
  exact if_neg hn

/-- So is that of a line with more data than the count field can hold. -/
theorem decode_encode_of_long_data {d : List Byte} (h : 4294967295 < d.length) :
    decode (Sys2Proof.encode (.checksum d)) = .error (.malformed opcChecksum) := by
  have hn : d.length ≠ countValue (count32 d.length) := by
    simp only [countValue, count32, List.foldl_cons, List.foldl_nil, byteOf_toNat]
    omega
  exact if_neg hn

end Sys2Proof.Machine
end

