-- ==== Sys2Proof/Laws/Memory.lean ====
section
/-!
SUPPORT. The buffer operations: a read after a write, other indices, the canonical form and the capacity.
-/

namespace Sys2Proof.Machine

@[simp] theorem Memory.read_nil (i : Nat) : Memory.read [] i = none := rfl

@[simp] theorem Memory.read_write_self (m : Memory) (i : Nat) (v : Byte) :
    (m.write i v).read i = some v := by
  induction m with
  | nil => simp [Memory.write, Memory.read]
  | cons cell rest ih =>
    obtain ⟨k, w⟩ := cell
    simp only [Memory.write]
    split
    · simp [Memory.read]
    · split
      · simp [Memory.read, *]
      · simp [Memory.read, *]

theorem Memory.read_write_of_ne (m : Memory) {i j : Nat} (v : Byte) (h : j ≠ i) :
    (m.write i v).read j = m.read j := by
  induction m with
  | nil => simp [Memory.write, Memory.read, h]
  | cons cell rest ih =>
    obtain ⟨k, w⟩ := cell
    simp only [Memory.write]
    split
    · simp [Memory.read, h]
    · split
      · subst_vars
        simp [Memory.read, h]
      · simp [Memory.read, ih]

theorem Memory.read_write (m : Memory) (i j : Nat) (v : Byte) :
    (m.write i v).read j = if j = i then some v else m.read j := by
  by_cases h : j = i
  · subst h; simp
  · simp [h, Memory.read_write_of_ne m v h]

/-- A range read depends on the bytes of the range alone. -/
theorem Memory.readRange_congr {m m' : Memory} {n : Nat} (h : ∀ i, i < n → m.read i = m'.read i) :
    m.readRange n = m'.readRange n := by
  induction n with
  | zero => rfl
  | succ n ih =>
    rw [Memory.readRange, Memory.readRange, h n (by omega), ih fun i hi => h i (by omega)]

/-- Writing at or above the end of a range leaves the range. -/
theorem Memory.readRange_write_above (m : Memory) {n i : Nat} (v : Byte) (h : n ≤ i) :
    (m.write i v).readRange n = m.readRange n :=
  Memory.readRange_congr fun _ hj => Memory.read_write_of_ne m v (by omega)

/-- Appending a byte at the end of a written range. -/
theorem Memory.readRange_write_end {m : Memory} {n : Nat} {bytes : List Byte} (v : Byte)
    (h : m.readRange n = some bytes) : (m.write n v).readRange (n + 1) = some (bytes ++ [v]) := by
  simp [Memory.readRange, Memory.readRange_write_above m v (Nat.le_refl n), h]

theorem Memory.readRange_length {m : Memory} {n : Nat} {bytes : List Byte}
    (h : m.readRange n = some bytes) : bytes.length = n := by
  induction n generalizing bytes with
  | zero => simp_all [Memory.readRange]
  | succ n ih =>
    rw [Memory.readRange] at h
    split at h
    · rename_i p b hp hb
      obtain rfl := Option.some.inj h
      simp [ih hp]
    · exact absurd h (by simp)

/-- What a sequence of writes leaves at each index. -/
theorem Memory.read_writeAll (m : Memory) (i j : Nat) (bytes : List Byte) :
    (m.writeAll i bytes).read j =
      if i ≤ j ∧ j < i + bytes.length then bytes[j - i]? else m.read j := by
  induction bytes generalizing m i with
  | nil => simp [Memory.writeAll]
  | cons v vs ih =>
    rw [Memory.writeAll, ih, Memory.read_write, List.length_cons]
    by_cases h1 : i + 1 ≤ j ∧ j < i + 1 + vs.length
    · have e : j - i = (j - (i + 1)) + 1 := by omega
      rw [if_pos h1, if_pos (by omega), e, List.getElem?_cons_succ]
    · rw [if_neg h1]
      by_cases h2 : j = i
      · subst h2
        rw [if_pos rfl, if_pos (by omega)]
        simp
      · rw [if_neg h2, if_neg (by omega)]

/-! ### The canonical form and the capacity -/

theorem Memory.wf_cons_cons (a b : Host.Cell) (m : Memory) :
    Memory.wf (a :: b :: m) = true ↔ a.1 < b.1 ∧ Memory.wf (b :: m) = true := by
  simp [Memory.wf]

/-- The first index of a write is the smaller of the old first index and the written one. -/
theorem Memory.write_head (m : Memory) (i : Nat) (v : Byte) :
    ∃ c rest, m.write i v = c :: rest ∧ (c.1 = i ∨ ∃ d m', m = d :: m' ∧ c.1 = d.1) := by
  cases m with
  | nil => exact ⟨(i, v), [], rfl, .inl rfl⟩
  | cons cell rest =>
    obtain ⟨k, w⟩ := cell
    simp only [Memory.write]
    split
    · exact ⟨_, _, rfl, .inl rfl⟩
    · split
      · exact ⟨_, _, rfl, .inr ⟨_, _, rfl, rfl⟩⟩
      · exact ⟨_, _, rfl, .inr ⟨_, _, rfl, rfl⟩⟩

/-- Every write keeps the canonical form. -/
theorem Memory.wf_write {m : Memory} (i : Nat) (v : Byte) (h : m.wf = true) :
    (m.write i v).wf = true := by
  induction m with
  | nil => rfl
  | cons cell rest ih =>
    obtain ⟨k, w⟩ := cell
    have hrest : Memory.wf rest = true := by
      cases rest with
      | nil => rfl
      | cons b m => exact ((Memory.wf_cons_cons _ _ _).1 h).2
    simp only [Memory.write]
    split
    · rename_i hlt
      exact (Memory.wf_cons_cons _ _ _).2 ⟨hlt, h⟩
    · split
      · cases rest with
        | nil => rfl
        | cons b m => exact (Memory.wf_cons_cons _ _ _).2 ((Memory.wf_cons_cons _ _ _).1 h)
      · rename_i hnlt hne
        obtain ⟨c, r, hw, hc⟩ := Memory.write_head rest i v
        rw [hw]
        refine (Memory.wf_cons_cons _ _ _).2 ⟨?_, hw ▸ ih hrest⟩
        rcases hc with hc | ⟨d, m', rfl, hc⟩
        · change k < c.1
          omega
        · have := ((Memory.wf_cons_cons _ _ _).1 h).1
          change k < c.1
          rw [hc]
          exact this

theorem Memory.within_write {m : Memory} {cap : Nat} (i : Nat) (v : Byte) (h : m.within cap = true)
    (hi : i < cap) : (m.write i v).within cap = true := by
  induction m with
  | nil => simp [Memory.write, Memory.within, hi]
  | cons cell rest ih =>
    obtain ⟨k, w⟩ := cell
    have hk : k < cap ∧ Memory.within rest cap = true := by simpa [Memory.within] using h
    simp only [Memory.write]
    split
    · simpa [Memory.within, hi] using h
    · split
      · simpa [Memory.within] using h
      · have := ih hk.2
        simpa [Memory.within, hk.1] using this

theorem Memory.wf_writeAll {m : Memory} (i : Nat) (bytes : List Byte) (h : m.wf = true) :
    (m.writeAll i bytes).wf = true := by
  induction bytes generalizing m i with
  | nil => exact h
  | cons v vs ih => exact ih (i + 1) (Memory.wf_write i v h)

theorem Memory.within_writeAll {m : Memory} {cap : Nat} (i : Nat) (bytes : List Byte)
    (h : m.within cap = true) (hi : i + bytes.length ≤ cap) :
    (m.writeAll i bytes).within cap = true := by
  induction bytes generalizing m i with
  | nil => exact h
  | cons v vs ih =>
    rw [List.length_cons] at hi
    exact ih (i + 1) (Memory.within_write i v h (by omega)) (by omega)

end Sys2Proof.Machine
end

