-- ==== Sys2Proof/Laws/State.lean ====
section
/-!
SUPPORT. One lemma per field per named update of State, true by unfolding once, so that no later proof unfolds a
record update.
-/

namespace Sys2Proof.Machine

variable (s : State)

/-! #### hunt -/

@[simp] theorem State.hunt_cfgHeader : (s.hunt).cfgHeader = s.cfgHeader := rfl
@[simp] theorem State.hunt_cfgTrailer : (s.hunt).cfgTrailer = s.cfgTrailer := rfl
@[simp] theorem State.hunt_cfgMaxPay : (s.hunt).cfgMaxPay = s.cfgMaxPay := rfl
@[simp] theorem State.hunt_cfgCrcEn : (s.hunt).cfgCrcEn = s.cfgCrcEn := rfl
@[simp] theorem State.hunt_dstate : (s.hunt).dstate = .waitHeader1 := rfl
@[simp] theorem State.hunt_lenReg : (s.hunt).lenReg = 0#16 := rfl
@[simp] theorem State.hunt_cmdReg : (s.hunt).cmdReg = 0#8 := rfl
@[simp] theorem State.hunt_idx : (s.hunt).idx = 0#16 := rfl
@[simp] theorem State.hunt_rxCrc : (s.hunt).rxCrc = 0#16 := rfl
@[simp] theorem State.hunt_pbuf : (s.hunt).pbuf = s.pbuf := rfl
@[simp] theorem State.hunt_span : (s.hunt).span = s.span := rfl
@[simp] theorem State.hunt_spanLen : (s.hunt).spanLen = 0#17 := rfl
@[simp] theorem State.hunt_scratch : (s.hunt).scratch = s.scratch := rfl
@[simp] theorem State.hunt_crcAcc : (s.hunt).crcAcc = s.crcAcc := rfl
@[simp] theorem State.hunt_requests : (s.hunt).requests = s.requests := rfl
@[simp] theorem State.hunt_outputs : (s.hunt).outputs = s.outputs := rfl

/-! #### respond -/

@[simp] theorem State.respond_cfgHeader (r : Response) :
    (s.respond r).cfgHeader = s.cfgHeader := rfl

@[simp] theorem State.respond_cfgTrailer (r : Response) :
    (s.respond r).cfgTrailer = s.cfgTrailer := rfl

@[simp] theorem State.respond_cfgMaxPay (r : Response) :
    (s.respond r).cfgMaxPay = s.cfgMaxPay := rfl

@[simp] theorem State.respond_cfgCrcEn (r : Response) : (s.respond r).cfgCrcEn = s.cfgCrcEn := rfl
@[simp] theorem State.respond_dstate (r : Response) : (s.respond r).dstate = s.dstate := rfl
@[simp] theorem State.respond_lenReg (r : Response) : (s.respond r).lenReg = s.lenReg := rfl
@[simp] theorem State.respond_cmdReg (r : Response) : (s.respond r).cmdReg = s.cmdReg := rfl
@[simp] theorem State.respond_idx (r : Response) : (s.respond r).idx = s.idx := rfl
@[simp] theorem State.respond_rxCrc (r : Response) : (s.respond r).rxCrc = s.rxCrc := rfl
@[simp] theorem State.respond_pbuf (r : Response) : (s.respond r).pbuf = s.pbuf := rfl
@[simp] theorem State.respond_span (r : Response) : (s.respond r).span = s.span := rfl
@[simp] theorem State.respond_spanLen (r : Response) : (s.respond r).spanLen = s.spanLen := rfl
@[simp] theorem State.respond_scratch (r : Response) : (s.respond r).scratch = s.scratch := rfl
@[simp] theorem State.respond_crcAcc (r : Response) : (s.respond r).crcAcc = s.crcAcc := rfl
@[simp] theorem State.respond_requests (r : Response) : (s.respond r).requests = s.requests := rfl
@[simp] theorem State.respond_outputs (r : Response) :
    (s.respond r).outputs = s.outputs ++ [Output.response r] := rfl


/-! #### emit -/

@[simp] theorem State.emit_cfgHeader (e : Event) : (s.emit e).cfgHeader = s.cfgHeader := rfl
@[simp] theorem State.emit_cfgTrailer (e : Event) : (s.emit e).cfgTrailer = s.cfgTrailer := rfl
@[simp] theorem State.emit_cfgMaxPay (e : Event) : (s.emit e).cfgMaxPay = s.cfgMaxPay := rfl
@[simp] theorem State.emit_cfgCrcEn (e : Event) : (s.emit e).cfgCrcEn = s.cfgCrcEn := rfl
@[simp] theorem State.emit_dstate (e : Event) : (s.emit e).dstate = s.dstate := rfl
@[simp] theorem State.emit_lenReg (e : Event) : (s.emit e).lenReg = s.lenReg := rfl
@[simp] theorem State.emit_cmdReg (e : Event) : (s.emit e).cmdReg = s.cmdReg := rfl
@[simp] theorem State.emit_idx (e : Event) : (s.emit e).idx = s.idx := rfl
@[simp] theorem State.emit_rxCrc (e : Event) : (s.emit e).rxCrc = s.rxCrc := rfl
@[simp] theorem State.emit_pbuf (e : Event) : (s.emit e).pbuf = s.pbuf := rfl
@[simp] theorem State.emit_span (e : Event) : (s.emit e).span = s.span := rfl
@[simp] theorem State.emit_spanLen (e : Event) : (s.emit e).spanLen = s.spanLen := rfl
@[simp] theorem State.emit_scratch (e : Event) : (s.emit e).scratch = s.scratch := rfl
@[simp] theorem State.emit_crcAcc (e : Event) : (s.emit e).crcAcc = s.crcAcc := rfl
@[simp] theorem State.emit_requests (e : Event) : (s.emit e).requests = s.requests := rfl
@[simp] theorem State.emit_outputs (e : Event) : (s.emit e).outputs = s.outputs ++ [Output.event e] := rfl

/-! #### startSpan -/

@[simp] theorem State.startSpan_cfgHeader (b : Byte) :
    (s.startSpan b).cfgHeader = s.cfgHeader := rfl

@[simp] theorem State.startSpan_cfgTrailer (b : Byte) :
    (s.startSpan b).cfgTrailer = s.cfgTrailer := rfl

@[simp] theorem State.startSpan_cfgMaxPay (b : Byte) :
    (s.startSpan b).cfgMaxPay = s.cfgMaxPay := rfl

@[simp] theorem State.startSpan_cfgCrcEn (b : Byte) : (s.startSpan b).cfgCrcEn = s.cfgCrcEn := rfl
@[simp] theorem State.startSpan_dstate (b : Byte) : (s.startSpan b).dstate = s.dstate := rfl
@[simp] theorem State.startSpan_lenReg (b : Byte) : (s.startSpan b).lenReg = s.lenReg := rfl
@[simp] theorem State.startSpan_cmdReg (b : Byte) : (s.startSpan b).cmdReg = s.cmdReg := rfl
@[simp] theorem State.startSpan_idx (b : Byte) : (s.startSpan b).idx = s.idx := rfl
@[simp] theorem State.startSpan_rxCrc (b : Byte) : (s.startSpan b).rxCrc = s.rxCrc := rfl
@[simp] theorem State.startSpan_pbuf (b : Byte) : (s.startSpan b).pbuf = s.pbuf := rfl
@[simp] theorem State.startSpan_span (b : Byte) : (s.startSpan b).span = s.span.write 0 b := rfl
@[simp] theorem State.startSpan_spanLen (b : Byte) : (s.startSpan b).spanLen = 1#17 := rfl
@[simp] theorem State.startSpan_scratch (b : Byte) : (s.startSpan b).scratch = s.scratch := rfl
@[simp] theorem State.startSpan_crcAcc (b : Byte) : (s.startSpan b).crcAcc = s.crcAcc := rfl
@[simp] theorem State.startSpan_requests (b : Byte) : (s.startSpan b).requests = s.requests := rfl
@[simp] theorem State.startSpan_outputs (b : Byte) : (s.startSpan b).outputs = s.outputs := rfl

/-! #### crcStart -/

@[simp] theorem State.crcStart_cfgHeader : (s.crcStart).cfgHeader = s.cfgHeader := rfl
@[simp] theorem State.crcStart_cfgTrailer : (s.crcStart).cfgTrailer = s.cfgTrailer := rfl
@[simp] theorem State.crcStart_cfgMaxPay : (s.crcStart).cfgMaxPay = s.cfgMaxPay := rfl
@[simp] theorem State.crcStart_cfgCrcEn : (s.crcStart).cfgCrcEn = s.cfgCrcEn := rfl
@[simp] theorem State.crcStart_dstate : (s.crcStart).dstate = s.dstate := rfl
@[simp] theorem State.crcStart_lenReg : (s.crcStart).lenReg = s.lenReg := rfl
@[simp] theorem State.crcStart_cmdReg : (s.crcStart).cmdReg = s.cmdReg := rfl
@[simp] theorem State.crcStart_idx : (s.crcStart).idx = s.idx := rfl
@[simp] theorem State.crcStart_rxCrc : (s.crcStart).rxCrc = s.rxCrc := rfl
@[simp] theorem State.crcStart_pbuf : (s.crcStart).pbuf = s.pbuf := rfl
@[simp] theorem State.crcStart_span : (s.crcStart).span = s.span := rfl
@[simp] theorem State.crcStart_spanLen : (s.crcStart).spanLen = s.spanLen := rfl
@[simp] theorem State.crcStart_scratch : (s.crcStart).scratch = s.scratch := rfl
@[simp] theorem State.crcStart_crcAcc : (s.crcStart).crcAcc = some crcInit := rfl
@[simp] theorem State.crcStart_requests : (s.crcStart).requests = s.requests := rfl
@[simp] theorem State.crcStart_outputs : (s.crcStart).outputs = s.outputs := rfl

/-! #### crcByte -/

@[simp] theorem State.crcByte_cfgHeader (b : Byte) : (s.crcByte b).cfgHeader = s.cfgHeader := rfl
@[simp] theorem State.crcByte_cfgTrailer (b : Byte) : (s.crcByte b).cfgTrailer = s.cfgTrailer := rfl
@[simp] theorem State.crcByte_cfgMaxPay (b : Byte) : (s.crcByte b).cfgMaxPay = s.cfgMaxPay := rfl
@[simp] theorem State.crcByte_cfgCrcEn (b : Byte) : (s.crcByte b).cfgCrcEn = s.cfgCrcEn := rfl
@[simp] theorem State.crcByte_dstate (b : Byte) : (s.crcByte b).dstate = s.dstate := rfl
@[simp] theorem State.crcByte_lenReg (b : Byte) : (s.crcByte b).lenReg = s.lenReg := rfl
@[simp] theorem State.crcByte_cmdReg (b : Byte) : (s.crcByte b).cmdReg = s.cmdReg := rfl
@[simp] theorem State.crcByte_idx (b : Byte) : (s.crcByte b).idx = s.idx := rfl
@[simp] theorem State.crcByte_rxCrc (b : Byte) : (s.crcByte b).rxCrc = s.rxCrc := rfl
@[simp] theorem State.crcByte_pbuf (b : Byte) : (s.crcByte b).pbuf = s.pbuf := rfl
@[simp] theorem State.crcByte_span (b : Byte) : (s.crcByte b).span = s.span := rfl
@[simp] theorem State.crcByte_spanLen (b : Byte) : (s.crcByte b).spanLen = s.spanLen := rfl
@[simp] theorem State.crcByte_scratch (b : Byte) : (s.crcByte b).scratch = s.scratch := rfl
@[simp] theorem State.crcByte_crcAcc (b : Byte) :
    (s.crcByte b).crcAcc = s.crcAcc.map (crcStep · b) := rfl

@[simp] theorem State.crcByte_requests (b : Byte) : (s.crcByte b).requests = s.requests := rfl
@[simp] theorem State.crcByte_outputs (b : Byte) : (s.crcByte b).outputs = s.outputs := rfl

/-! #### crcEnd -/

@[simp] theorem State.crcEnd_cfgHeader : (s.crcEnd).cfgHeader = s.cfgHeader := rfl
@[simp] theorem State.crcEnd_cfgTrailer : (s.crcEnd).cfgTrailer = s.cfgTrailer := rfl
@[simp] theorem State.crcEnd_cfgMaxPay : (s.crcEnd).cfgMaxPay = s.cfgMaxPay := rfl
@[simp] theorem State.crcEnd_cfgCrcEn : (s.crcEnd).cfgCrcEn = s.cfgCrcEn := rfl
@[simp] theorem State.crcEnd_dstate : (s.crcEnd).dstate = s.dstate := rfl
@[simp] theorem State.crcEnd_lenReg : (s.crcEnd).lenReg = s.lenReg := rfl
@[simp] theorem State.crcEnd_cmdReg : (s.crcEnd).cmdReg = s.cmdReg := rfl
@[simp] theorem State.crcEnd_idx : (s.crcEnd).idx = s.idx := rfl
@[simp] theorem State.crcEnd_rxCrc : (s.crcEnd).rxCrc = s.rxCrc := rfl
@[simp] theorem State.crcEnd_pbuf : (s.crcEnd).pbuf = s.pbuf := rfl
@[simp] theorem State.crcEnd_span : (s.crcEnd).span = s.span := rfl
@[simp] theorem State.crcEnd_spanLen : (s.crcEnd).spanLen = s.spanLen := rfl
@[simp] theorem State.crcEnd_scratch : (s.crcEnd).scratch = s.scratch := rfl
@[simp] theorem State.crcEnd_crcAcc : (s.crcEnd).crcAcc = none := rfl
@[simp] theorem State.crcEnd_requests : (s.crcEnd).requests = s.requests := rfl
@[simp] theorem State.crcEnd_outputs : (s.crcEnd).outputs = s.outputs := rfl

/-! #### issue -/

@[simp] theorem State.issue_cfgHeader (rs : List Request) :
    (s.issue rs).cfgHeader = s.cfgHeader := rfl

@[simp] theorem State.issue_cfgTrailer (rs : List Request) :
    (s.issue rs).cfgTrailer = s.cfgTrailer := rfl

@[simp] theorem State.issue_cfgMaxPay (rs : List Request) :
    (s.issue rs).cfgMaxPay = s.cfgMaxPay := rfl

@[simp] theorem State.issue_cfgCrcEn (rs : List Request) : (s.issue rs).cfgCrcEn = s.cfgCrcEn := rfl
@[simp] theorem State.issue_dstate (rs : List Request) : (s.issue rs).dstate = s.dstate := rfl
@[simp] theorem State.issue_lenReg (rs : List Request) : (s.issue rs).lenReg = s.lenReg := rfl
@[simp] theorem State.issue_cmdReg (rs : List Request) : (s.issue rs).cmdReg = s.cmdReg := rfl
@[simp] theorem State.issue_idx (rs : List Request) : (s.issue rs).idx = s.idx := rfl
@[simp] theorem State.issue_rxCrc (rs : List Request) : (s.issue rs).rxCrc = s.rxCrc := rfl
@[simp] theorem State.issue_pbuf (rs : List Request) : (s.issue rs).pbuf = s.pbuf := rfl
@[simp] theorem State.issue_span (rs : List Request) : (s.issue rs).span = s.span := rfl
@[simp] theorem State.issue_spanLen (rs : List Request) : (s.issue rs).spanLen = s.spanLen := rfl
@[simp] theorem State.issue_scratch (rs : List Request) : (s.issue rs).scratch = s.scratch := rfl
@[simp] theorem State.issue_crcAcc (rs : List Request) : (s.issue rs).crcAcc = s.crcAcc := rfl
@[simp] theorem State.issue_requests (rs : List Request) :
    (s.issue rs).requests = s.requests ++ rs := rfl

@[simp] theorem State.issue_outputs (rs : List Request) : (s.issue rs).outputs = s.outputs := rfl

/-! #### issueFirst -/

@[simp] theorem State.issueFirst_cfgHeader (r : Request) :
    (s.issueFirst r).cfgHeader = s.cfgHeader := rfl

@[simp] theorem State.issueFirst_cfgTrailer (r : Request) :
    (s.issueFirst r).cfgTrailer = s.cfgTrailer := rfl

@[simp] theorem State.issueFirst_cfgMaxPay (r : Request) :
    (s.issueFirst r).cfgMaxPay = s.cfgMaxPay := rfl

@[simp] theorem State.issueFirst_cfgCrcEn (r : Request) :
    (s.issueFirst r).cfgCrcEn = s.cfgCrcEn := rfl

@[simp] theorem State.issueFirst_dstate (r : Request) : (s.issueFirst r).dstate = s.dstate := rfl
@[simp] theorem State.issueFirst_lenReg (r : Request) : (s.issueFirst r).lenReg = s.lenReg := rfl
@[simp] theorem State.issueFirst_cmdReg (r : Request) : (s.issueFirst r).cmdReg = s.cmdReg := rfl
@[simp] theorem State.issueFirst_idx (r : Request) : (s.issueFirst r).idx = s.idx := rfl
@[simp] theorem State.issueFirst_rxCrc (r : Request) : (s.issueFirst r).rxCrc = s.rxCrc := rfl
@[simp] theorem State.issueFirst_pbuf (r : Request) : (s.issueFirst r).pbuf = s.pbuf := rfl
@[simp] theorem State.issueFirst_span (r : Request) : (s.issueFirst r).span = s.span := rfl
@[simp] theorem State.issueFirst_spanLen (r : Request) : (s.issueFirst r).spanLen = s.spanLen := rfl
@[simp] theorem State.issueFirst_scratch (r : Request) : (s.issueFirst r).scratch = s.scratch := rfl
@[simp] theorem State.issueFirst_crcAcc (r : Request) : (s.issueFirst r).crcAcc = s.crcAcc := rfl
@[simp] theorem State.issueFirst_requests (r : Request) :
    (s.issueFirst r).requests = r :: s.requests := rfl

@[simp] theorem State.issueFirst_outputs (r : Request) : (s.issueFirst r).outputs = s.outputs := rfl

/-! #### The two updates that only give a response -/

@[simp] theorem State.raisePayloadTooLong_eq : s.raisePayloadTooLong = s.respond .errPayloadTooLong := rfl
@[simp] theorem State.refuse_eq : s.refuse = s.respond .refused := rfl

end Sys2Proof.Machine
end

