-- ==== Sys2Proof/Laws/Ops.lean ====
section
/-!
SUPPORT. What each shared operation can do, said once: the checksum computation, the appends and reads of the
buffers, taking a request.
-/

namespace Sys2Proof.Machine

/-! ### The checksum -/

@[simp] theorem checksum_nil : checksum [] = crcInit := rfl

/-- The accumulator along a computation is the fold of `crcStep`; nothing else changes. -/
theorem foldl_crcByte (d : List Byte) (s : State) (acc : Word) :
    d.foldl State.crcByte { s with crcAcc := some acc } =
      { s with crcAcc := some (d.foldl crcStep acc) } := by
  induction d generalizing acc with
  | nil => rfl
  | cons b d ih => exact ih (crcStep acc b)

/-- A whole computation gives the checksum and leaves no accumulator. -/
theorem State.runChecksum_eq (s : State) (d : List Byte) :
    s.runChecksum d = (checksum d, { s with crcAcc := none }) := by
  have h : d.foldl State.crcByte s.crcStart = { s with crcAcc := some (checksum d) } :=
    foldl_crcByte d s crcInit
  simp [State.runChecksum, h, State.crcEnd]

/-! ### Buffers -/

theorem State.appendSpan_ok {s t : State} {b : Byte} (h : s.appendSpan b = .ok t) :
    s.spanLen.toNat < s.spanCap ∧
    t = { s with span := s.span.write s.spanLen.toNat b, spanLen := s.spanLen + 1#17 } := by
  unfold State.appendSpan at h
  split at h
  · exact ⟨‹_›, (Except.ok.inj h).symm⟩
  · cases h

theorem State.appendSpan_of_lt {s : State} (b : Byte) (h : s.spanLen.toNat < s.spanCap) :
    s.appendSpan b =
      .ok { s with span := s.span.write s.spanLen.toNat b, spanLen := s.spanLen + 1#17 } :=
  if_pos h

theorem State.appendPayload_ok {s t : State} {b : Byte} (h : s.appendPayload b = .ok t) :
    s.idx.toNat < s.pbufCap ∧
    t = { s with pbuf := s.pbuf.write s.idx.toNat b, idx := s.idx + 1#16 } := by
  unfold State.appendPayload at h
  split at h
  · exact ⟨‹_›, (Except.ok.inj h).symm⟩
  · cases h

theorem State.appendPayload_of_lt {s : State} (b : Byte) (h : s.idx.toNat < s.pbufCap) :
    s.appendPayload b = .ok { s with pbuf := s.pbuf.write s.idx.toNat b, idx := s.idx + 1#16 } :=
  if_pos h

theorem State.readPayload_ok {s : State} {p : List Byte} :
    s.readPayload = .ok p ↔ s.idx.toNat ≤ s.pbufCap ∧ s.pbuf.readRange s.idx.toNat = some p := by
  unfold State.readPayload
  by_cases h : s.idx.toNat ≤ s.pbufCap
  · rw [if_pos h]
    cases s.pbuf.readRange s.idx.toNat <;> simp [h]
  · simp [h]

theorem State.readSpan_ok {s : State} {d : List Byte} :
    s.readSpan = .ok d ↔ s.spanLen.toNat ≤ s.spanCap ∧ s.span.readRange s.spanLen.toNat = some d := by
  unfold State.readSpan
  by_cases h : s.spanLen.toNat ≤ s.spanCap
  · rw [if_pos h]
    cases s.span.readRange s.spanLen.toNat <;> simp [h]
  · simp [h]

/-! ### Requests -/

theorem State.takeRequest_nil {s : State} (h : s.requests = []) : s.takeRequest = none := by
  simp [State.takeRequest, h]

theorem State.takeRequest_cons {s : State} {r : Request} {rest : List Request}
    (h : s.requests = r :: rest) : s.takeRequest = some (r, { s with requests := rest }) := by
  simp [State.takeRequest, h]

end Sys2Proof.Machine
end

