-- ==== Sys2Proof/Laws/Decoder.lean ====
section
/-!
SUPPORT. What each state rule of the decoder can do, said once: if it answers a state, which one. Claims about
FEED cite these and do not unfold the rules.
-/

namespace Sys2Proof.Machine

theorem finishFeed_next {r : Except Fault State} {t : State} :
    finishFeed r = .next t ↔ ∃ u, r = .ok u ∧ t = u.respond .ack := by
  cases r with
  | error f => simp [finishFeed]
  | ok u => simp [finishFeed, eq_comm]

theorem finishFeed_ok (u : State) : finishFeed (.ok u) = .next (u.respond .ack) := rfl

/-- The row rules are the rules FEED selects (R82). -/
theorem execFeed_eq {d : DState} {s : State} (b : Byte) (h : s.dstate = d) :
    execFeed b s = finishFeed (ruleOf d b s) := by rw [execFeed, h]

theorem ruleWaitLengthLo_ok {b : Byte} {s t : State} (h : ruleWaitLengthLo b s = .ok t) :
    s.spanLen.toNat < s.spanCap ∧
    t = checkLength { s with
      span := s.span.write s.spanLen.toNat b
      spanLen := s.spanLen + 1#17
      lenReg := setLo s.lenReg b } := by
  unfold ruleWaitLengthLo at h
  split at h
  · rename_i u hu
    obtain ⟨hlt, rfl⟩ := State.appendSpan_ok hu
    exact ⟨hlt, (Except.ok.inj h).symm⟩
  · cases h

theorem ruleWaitCmd_ok {b : Byte} {s t : State} (h : ruleWaitCmd b s = .ok t) :
    s.spanLen.toNat < s.spanCap ∧
    t = { s with
      span := s.span.write s.spanLen.toNat b
      spanLen := s.spanLen + 1#17
      cmdReg := b
      idx := 0x0000#16
      dstate := if s.NoPayload then s.afterPayload else .readData } := by
  unfold ruleWaitCmd at h
  split at h
  · rename_i u hu
    obtain ⟨hlt, rfl⟩ := State.appendSpan_ok hu
    exact ⟨hlt, (Except.ok.inj h).symm⟩
  · cases h

theorem ruleReadData_ok {b : Byte} {s t : State} (h : ruleReadData b s = .ok t) :
    s.idx.toNat < s.pbufCap ∧ s.spanLen.toNat < s.spanCap ∧
    t = checkPayload { s with
      pbuf := s.pbuf.write s.idx.toNat b
      idx := s.idx + 1#16
      span := s.span.write s.spanLen.toNat b
      spanLen := s.spanLen + 1#17 } := by
  unfold ruleReadData at h
  split at h
  · rename_i u hu
    obtain ⟨hidx, rfl⟩ := State.appendPayload_ok hu
    split at h
    · rename_i v hv
      obtain ⟨hspan, rfl⟩ := State.appendSpan_ok hv
      exact ⟨hidx, hspan, (Except.ok.inj h).symm⟩
    · cases h
  · cases h

theorem ruleWaitCrc2_ok {b : Byte} {s t : State} (h : ruleWaitCrc2 b s = .ok t) :
    ∃ d, s.spanLen.toNat ≤ s.spanCap ∧ s.span? = some d ∧
      t = checkCrc (checksum d) { s with crcAcc := none, rxCrc := setLo s.rxCrc b } := by
  unfold ruleWaitCrc2 at h
  split at h
  · rename_i d hd
    obtain ⟨hcap, hread⟩ := State.readSpan_ok.1 hd
    refine ⟨d, hcap, hread, ?_⟩
    rw [State.runChecksum_eq] at h
    exact (Except.ok.inj h).symm
  · cases h

theorem ruleWaitEnd2_ok {b : Byte} {s t : State} (h : ruleWaitEnd2 b s = .ok t) :
    (b = lo s.cfgTrailer ∧ ∃ p, s.idx.toNat ≤ s.pbufCap ∧ s.payload? = some p ∧
      t = (s.emit (.packet s.cmdReg p)).hunt) ∨
    (b ≠ lo s.cfgTrailer ∧ t = s.hunt) := by
  unfold ruleWaitEnd2 at h
  split at h
  · rename_i hb
    split at h
    · rename_i p hp
      obtain ⟨hcap, hread⟩ := State.readPayload_ok.1 hp
      exact .inl ⟨hb, p, hcap, hread, (Except.ok.inj h).symm⟩
    · cases h
  · exact .inr ⟨‹_›, (Except.ok.inj h).symm⟩

/-! ### The frames of the three checks -/

/-- `checkLength` goes to WAIT_CMD or hunts. -/
theorem checkLength_cases (s : State) :
    (s.LengthLegal ∧ checkLength s = { s with dstate := .waitCmd }) ∨
    (¬ s.LengthLegal ∧ checkLength s = s.hunt) := by
  by_cases h : s.LengthLegal
  · exact .inl ⟨h, if_pos h⟩
  · exact .inr ⟨h, if_neg h⟩

/-- `checkPayload` changes the decoder state alone. -/
theorem checkPayload_cases (s : State) :
    (s.PayloadComplete ∧ checkPayload s = { s with dstate := s.afterPayload }) ∨
    (¬ s.PayloadComplete ∧ checkPayload s = s) := by
  by_cases h : s.PayloadComplete
  · exact .inl ⟨h, if_pos h⟩
  · exact .inr ⟨h, if_neg h⟩

/-- `checkCrc` goes to WAIT_END_1 or hunts. -/
theorem checkCrc_cases (v : Word) (s : State) :
    (v = s.rxCrc ∧ checkCrc v s = { s with dstate := .waitEnd1 }) ∨
    (v ≠ s.rxCrc ∧ checkCrc v s = s.hunt) := by
  by_cases h : v = s.rxCrc
  · exact .inl ⟨h, if_pos h⟩
  · exact .inr ⟨h, if_neg h⟩

end Sys2Proof.Machine
end

