-- ==== Sys2Proof/Laws/Encoder.lean ====
section
/-!
SUPPORT. The checksum field of ENCODE and the lengths of its parts.
-/

namespace Sys2Proof.Machine

/-- The checksum field, and the state the computation leaves. -/
theorem State.checksumField_eq (s : State) (d : List Byte) :
    s.checksumField d =
      (if s.cfgCrcEn then be16 (checksum d) else [],
       { s with crcAcc := if s.cfgCrcEn then none else s.crcAcc }) := by
  unfold State.checksumField
  by_cases h : s.cfgCrcEn = true
  · simp [h, State.runChecksum_eq]
  · rw [if_neg h, if_neg h, if_neg h]

@[simp] theorem frameSpan_length (c : Byte) (p : List Byte) : (frameSpan c p).length = p.length + 3 := by
  simp [frameSpan]; omega

theorem lengthField_toNat (p : List Byte) (h : p.length ≤ 65534) :
    (lengthField p).toNat = 1 + p.length := by
  simp only [lengthField, BitVec.toNat_ofNat]
  omega

end Sys2Proof.Machine
end

