-- ==== Sys2Proof/Laws/PerInstr.lean ====
section
/-!
SUPPORT. Statements about every operation as syntax, one lemma per constructor. EncodedLength: the request of
a well-formed operation has the byte count that its own bytes 0 to 4 fix (R65).
-/

namespace Sys2Proof.Laws.EncodedLength

/-- R65: "its length is fixed by bytes 0 to 4". -/
def Statement (i : Instr) : Prop :=
  i.wellFormed = true → requestLength (encode i) = some (encode i).length

theorem reset : Statement .reset := fun _ => rfl
theorem feed (b : Byte) : Statement (.feed b) := fun _ => rfl
theorem feedWaitHeader1 (b : Byte) : Statement (.feedWaitHeader1 b) := fun _ => rfl
theorem feedWaitHeader2 (b : Byte) : Statement (.feedWaitHeader2 b) := fun _ => rfl
theorem feedWaitLengthHi (b : Byte) : Statement (.feedWaitLengthHi b) := fun _ => rfl
theorem feedWaitLengthLo (b : Byte) : Statement (.feedWaitLengthLo b) := fun _ => rfl
theorem feedWaitCmd (b : Byte) : Statement (.feedWaitCmd b) := fun _ => rfl
theorem feedReadData (b : Byte) : Statement (.feedReadData b) := fun _ => rfl
theorem feedWaitCrc1 (b : Byte) : Statement (.feedWaitCrc1 b) := fun _ => rfl
theorem feedWaitCrc2 (b : Byte) : Statement (.feedWaitCrc2 b) := fun _ => rfl
theorem feedWaitEnd1 (b : Byte) : Statement (.feedWaitEnd1 b) := fun _ => rfl
theorem feedWaitEnd2 (b : Byte) : Statement (.feedWaitEnd2 b) := fun _ => rfl

theorem encode (c : Byte) (p : List Byte) : Statement (.encode c p) := by
  intro h
  have hp : p.length ≤ 65535 := by simpa [Instr.wellFormed] using h
  have hc := countValue_count16 p.length hp
  rw [count16] at hc
  simp only [Sys2Proof.encode, count16, List.cons_append, List.nil_append, requestLength, hc]
  simp [opcEncode, opcReset, opcFeed]
  omega

theorem checksum (d : List Byte) : Statement (.checksum d) := by
  intro h
  have hd : d.length ≤ 4294967295 := by simpa [Instr.wellFormed] using h
  have hc := countValue_count32 d.length hd
  rw [count32] at hc
  simp only [Sys2Proof.encode, count32, List.cons_append, List.nil_append, requestLength, hc]
  simp [opcChecksum, opcEncode, opcReset, opcFeed]
  omega

end Sys2Proof.Laws.EncodedLength
end

