-- ==== Sys2Proof/Tests/Slice0.lean ====
section
/-!
SUPPORT. The model's own tests: the vectors of 95_test_vectors.md on one step each, the WellFormed smoke tests, and
one witness for the hypotheses of each statement.
-/

open Sys2Proof Sys2Proof.Machine

namespace Sys2Proof.Tests

/-! ### Small states -/

/-- The next state, if there is one. -/
def nextOf {φ ρ : Type} : Host.Outcome State φ ρ → Option State
  | .next t => some t
  | .fault _ => none
  | .refused _ => none

/-- The state after an operation. -/
def after (i : Instr) (s : State) : Option State := nextOf (exec i s)

/-- The default configuration with crc=1, in WAIT_HEADER_1. -/
def wh1 : State := { State.reset with cfgCrcEn := true }

/-- A hunting state. -/
def hunting (d : DState) : State := { wh1 with dstate := d }

/-- WAIT_LENGTH_LO after a high length byte. -/
def wll (h : Byte) : State :=
  { wh1 with dstate := .waitLengthLo, lenReg := join h 0x00#8, span := [(0, h)], spanLen := 1#17 }

/-- WAIT_CMD after a length. -/
def wcmd (l : Word) : State :=
  { wh1 with dstate := .waitCmd, lenReg := l, span := [(0, hi l), (1, lo l)], spanLen := 2#17 }

/-- A state from READ_DATA on: length l, command c, payload p so far, received checksum k. -/
def mid (d : DState) (l : Word) (c : Byte) (p : List Byte) (k : Word) : State :=
  { wh1 with
    dstate := d
    lenReg := l
    cmdReg := c
    idx := BitVec.ofNat 16 p.length
    pbuf := Memory.writeAll [] 0 p
    span := Memory.writeAll [] 0 (be16 l ++ c :: p)
    spanLen := BitVec.ofNat 17 (3 + p.length)
    rxCrc := k }

/-- Checksum disabled. -/
def crcOff (s : State) : State := { s with cfgCrcEn := false }

/-- Another maximum payload length. -/
def maxPay (n : Word) (s : State) : State := { s with cfgMaxPay := n }

/-- Two successful ENCODEs among other responses. -/
def twoFrames : State :=
  { wh1 with
    outputs :=
      [.response (.txFrame [0x01#8]), .event (.packet 0x10#8 []), .response .ack,
        .response .errPayloadTooLong, .response (.txFrame [0x02#8, 0x03#8]), .response .refused,
        .response (.crc 0#16)] }

/-- The scalar registers that HUNT clears. -/
def cleared (s : State) : Bool := decide (s.dstate = .waitHeader1 ∧ s.RegistersCleared)

/-- The end-to-end frame of 95_test_vectors.md section 1.2. -/
def goodFrame : List Byte :=
  [0xAA#8, 0x55#8, 0x00#8, 0x03#8, 0x10#8, 0x02#8, 0x03#8, 0x9F#8, 0xB2#8, 0x55#8, 0xAA#8]

/-! ### WellFormed: each check refuses an ill-formed term (R61, R62) -/

theorem smoke_encode_count_too_large (n : Nat) (h : 65535 < n) :
    (Instr.encode 0x00#8 (List.replicate n 0x00#8)).wellFormed = false := by
  simp [Instr.wellFormed, h]

theorem smoke_checksum_count_too_large (n : Nat) (h : 4294967295 < n) :
    (Instr.checksum (List.replicate n 0x00#8)).wellFormed = false := by
  simp [Instr.wellFormed, h]

/-! ### Requests, written out bit by bit from R59 to R62 -/

theorem test_decode_reset : decode [0b00000000#8] = .ok .reset := by decide

/-- R60: `0000 0001 bbbb bbbb`. -/
theorem test_decode_feed : decode [0b00000001#8, 0b10101010#8] = .ok (.feed 0xAA#8) := by decide

/-- R61: selector, command, count 0x0002, two payload bytes. -/
theorem test_decode_encode :
    decode [0b00000010#8, 0b00010000#8, 0b00000000#8, 0b00000010#8, 0b00000010#8, 0b00000011#8] =
      .ok (.encode 0x10#8 [0x02#8, 0x03#8]) := by decide

/-- R62: selector, count 0x00000001, one data byte. -/
theorem test_decode_checksum :
    decode [0b00000011#8, 0b00000000#8, 0b00000000#8, 0b00000000#8, 0b00000001#8, 0b01000001#8] =
      .ok (.checksum [0x41#8]) := by decide

/-- 95_test_vectors.md section 2.5. -/
theorem test_decode_refuses :
    decode [] = .error .noSelector ∧
    decode [0x04#8] = .error (.reservedSelector 0x04#8) ∧
    decode [0xFF#8, 0x00#8] = .error (.reservedSelector 0xFF#8) ∧
    decode [0x01#8] = .error (.malformed 0x01#8) ∧
    decode [0x01#8, 0xAA#8, 0x55#8] = .error (.malformed 0x01#8) ∧
    decode [0x02#8, 0x01#8, 0x00#8, 0x03#8, 0x01#8] = .error (.malformed 0x02#8) ∧
    decode [0x03#8, 0x00#8, 0x00#8, 0x00#8, 0x02#8, 0x00#8] = .error (.malformed 0x03#8) := by decide

/-- The opcode table's words: match 0x00, 0x0100 with a data byte, 0x02 and 0x03. -/
theorem test_table_words :
    decodeTableWord 8 0x00 = some .reset ∧ decodeTableWord 16 0x01AA = some (.feed 0xAA#8) ∧
    decodeTableWord 8 0x02 = some (.encode 0x00#8 []) ∧ decodeTableWord 8 0x03 = some (.checksum []) := by
  decide

/-- The request of each FEED.<state> row is the FEED's (opcode_table.json: match 0x0100, mask 0xFF00). -/
theorem test_encode_rows : ∀ d : DState, Sys2Proof.encode (feedRow d 0x5A#8) = [0x01#8, 0x5A#8] := by
  intro d; cases d <;> rfl

/-! ### The step -/

theorem test_step_feed_after_reset :
    (nextOf (step (State.reset.withFetchWord 16 0x01AA))).map (fun t => (t.dstate, t.outputs, t.requests)) =
      some (.waitHeader2, [.response .ack], []) := by decide

/-- 95_test_vectors.md section 4, P5: a raw FEED with no data byte is answered `Refused`. -/
theorem test_step_refused :
    nextOf (step { wh1 with requests := [[0x01#8]] }) =
      some { wh1 with outputs := [.response .refused] } := by decide

/-! ### CHECKSUM (95_test_vectors.md section 2.1) -/

theorem test_checksum_end_to_end :
    (after (.checksum [0x00#8, 0x03#8, 0x10#8, 0x02#8, 0x03#8]) wh1).map (·.outputs) =
      some [.response (.crc 0x9FB2#16)] := by decide +kernel

/-- The rounds of the first byte 00, listed in section 2.1. -/
theorem test_crc_rounds :
    ((List.range 9).map fun n => crcRounds n 0xFFFF#16) =
      [0xFFFF#16, 0xEFDF#16, 0xCF9F#16, 0x8F1F#16, 0x0E1F#16, 0x1C3E#16, 0x387C#16, 0x70F8#16, 0xE1F0#16] := by
  decide

/-! ### ENCODE (95_test_vectors.md section 2.2) -/

theorem test_encode_magic_bytes_verbatim :
    (after (.encode 0xAA#8 [0x55#8, 0xAA#8, 0x55#8, 0xAA#8]) wh1).map (·.outputs) =
      some [.response (.txFrame [0xAA#8, 0x55#8, 0x00#8, 0x05#8, 0xAA#8, 0x55#8, 0xAA#8, 0x55#8, 0xAA#8,
        0x88#8, 0xCC#8, 0x55#8, 0xAA#8])] := by decide +kernel

theorem test_encode_at_the_limit :
    (after (.encode 0x01#8 [0x01#8, 0x02#8]) (crcOff (maxPay 2#16 wh1))).map (·.responses) =
      some [.txFrame [0xAA#8, 0x55#8, 0x00#8, 0x03#8, 0x01#8, 0x01#8, 0x02#8, 0x55#8, 0xAA#8]] ∧
    (after (.encode 0x01#8 [0x01#8, 0x02#8, 0x03#8]) (maxPay 2#16 wh1)).map (·.responses) =
      some [.errPayloadTooLong] := by decide

/-! ### RESET (95_test_vectors.md section 2.4, X3) -/

theorem test_reset_mid_frame :
    (after .reset (mid .readData 3#16 0x10#8 [] 0#16)).map (fun t => (cleared t, t.span, t.outputs)) =
      some (true, [(0, 0x00#8), (1, 0x03#8), (2, 0x10#8)], [.response .ack]) := by decide

/-! ### FEED, one or two vectors per state (95_test_vectors.md section 2.3) -/

/-- F1, F2. -/
theorem test_feedWaitHeader1 :
    (after (.feedWaitHeader1 0xAA#8) wh1).map (·.dstate) = some .waitHeader2 ∧
    (after (.feedWaitHeader1 0x55#8) wh1).map (·.dstate) = some .waitHeader1 := by decide

/-- F4, F5: the aborting `header_hi` is consumed. -/
theorem test_feedWaitHeader2 :
    (after (.feedWaitHeader2 0x55#8) (hunting .waitHeader2)).map (·.dstate) = some .waitLengthHi ∧
    (after (.feedWaitHeader2 0xAA#8) (hunting .waitHeader2)).map cleared = some true := by decide

/-- F9. -/
theorem test_feedWaitLengthHi :
    (after (.feedWaitLengthHi 0xFF#8) (hunting .waitLengthHi)).map
      (fun t => (t.dstate, t.lenReg, t.span, t.spanLen)) =
      some (.waitLengthLo, 0xFF00#16, [(0, 0xFF#8)], 1#17) := by decide

/-- F10, F11. -/
theorem test_feedWaitLengthLo_low :
    (after (.feedWaitLengthLo 0x00#8) (wll 0x00#8)).map cleared = some true ∧
    (after (.feedWaitLengthLo 0x01#8) (wll 0x00#8)).map (fun t => (t.dstate, t.lenReg, t.spanLen)) =
      some (.waitCmd, 0x0001#16, 2#17) := by decide

/-- F13, F14: `MAX_PAYLOAD` + 1 is legal, `MAX_PAYLOAD` + 2 is not. -/
theorem test_feedWaitLengthLo_high :
    (after (.feedWaitLengthLo 0x01#8) (wll 0x01#8)).map (fun t => (t.dstate, t.lenReg)) =
      some (.waitCmd, 0x0101#16) ∧
    (after (.feedWaitLengthLo 0x02#8) (wll 0x01#8)).map cleared = some true := by decide

/-- The pseudocode of R87 with `MAX_PAYLOAD` = 65534: 0xFFFF is within the range (notes/assumptions/18.md). -/
theorem test_feedWaitLengthLo_longest :
    (after (.feedWaitLengthLo 0xFF#8) (maxPay 65534#16 (wll 0xFF#8))).map (fun t => (t.dstate, t.lenReg)) =
      some (.waitCmd, 0xFFFF#16) := by decide

/-- F18, F19, F20. -/
theorem test_feedWaitCmd :
    (after (.feedWaitCmd 0x01#8) (wcmd 1#16)).map (fun t => (t.dstate, t.cmdReg, t.span.read 2)) =
      some (.waitCrc1, 0x01#8, some 0x01#8) ∧
    (after (.feedWaitCmd 0x01#8) (crcOff (wcmd 1#16))).map (·.dstate) = some .waitEnd1 ∧
    (after (.feedWaitCmd 0x10#8) (wcmd 3#16)).map (fun t => (t.dstate, t.spanLen, t.idx)) =
      some (.readData, 3#17, 0#16) := by decide

/-- F21, F22. -/
theorem test_feedReadData_stays :
    (after (.feedReadData 0x02#8) (mid .readData 3#16 0x10#8 [] 0#16)).map
      (fun t => (t.dstate, t.pbuf, t.span.read 3, t.spanLen, t.idx)) =
      some (.readData, [(0, 0x02#8)], some 0x02#8, 4#17, 1#16) := by decide

theorem test_feedReadData_completes :
    (after (.feedReadData 0x03#8) (mid .readData 3#16 0x10#8 [0x02#8] 0#16)).map
      (fun t => (t.dstate, t.pbuf.read 1, t.span.read 4, t.spanLen, t.idx)) =
      some (.waitCrc1, some 0x03#8, some 0x03#8, 5#17, 2#16) := by decide

/-- F25. -/
theorem test_feedWaitCrc1 :
    (after (.feedWaitCrc1 0x9F#8) (mid .waitCrc1 3#16 0x10#8 [0x02#8, 0x03#8] 0#16)).map
      (fun t => (t.dstate, t.rxCrc)) = some (.waitCrc2, 0x9F00#16) := by decide

/-- F26. -/
theorem test_feedWaitCrc2_match :
    (after (.feedWaitCrc2 0xB2#8) (mid .waitCrc2 3#16 0x10#8 [0x02#8, 0x03#8] 0x9F00#16)).map
      (fun t => (t.dstate, t.rxCrc, t.crcAcc)) = some (.waitEnd1, 0x9FB2#16, none) := by decide +kernel

/-- F28. -/
theorem test_feedWaitCrc2_mismatch :
    (after (.feedWaitCrc2 0xB2#8) (mid .waitCrc2 3#16 0x10#8 [0x02#8, 0x02#8] 0x9F00#16)).map
      cleared = some true := by decide +kernel

/-- F29, F31. -/
theorem test_feedWaitEnd1 :
    (after (.feedWaitEnd1 0x55#8) (mid .waitEnd1 3#16 0x10#8 [0x02#8, 0x03#8] 0x9FB2#16)).map
      (·.dstate) = some .waitEnd2 ∧
    (after (.feedWaitEnd1 0xAA#8) (mid .waitEnd1 3#16 0x10#8 [0x02#8, 0x03#8] 0x9FB2#16)).map
      cleared = some true := by decide

/-- F32: the Packet event comes before the response. -/
theorem test_feedWaitEnd2_delivers :
    (after (.feedWaitEnd2 0xAA#8) (mid .waitEnd2 3#16 0x10#8 [0x02#8, 0x03#8] 0x9FB2#16)).map
      (fun t => (cleared t, t.outputs)) =
      some (true, [.event (.packet 0x10#8 [0x02#8, 0x03#8]), .response .ack]) := by decide

/-- F34. -/
theorem test_feedWaitEnd2_discards :
    (after (.feedWaitEnd2 0xAB#8) (mid .waitEnd2 3#16 0x10#8 [0x02#8, 0x03#8] 0x9FB2#16)).map
      (fun t => (cleared t, t.outputs)) = some (true, [.response .ack]) := by decide

/-- A row met in another state is the FEED its words spell (notes/assumptions/4.md). -/
theorem test_row_in_another_state :
    (after (.feedReadData 0xAA#8) wh1).map (·.dstate) = some .waitHeader2 := by decide

/-! ### Byte forms and the taxonomy -/

/-- 95_test_vectors.md section 2.3, last line, and section 2.2. -/
theorem test_byte_forms :
    (Event.packet 0x10#8 [0x02#8, 0x03#8]).bytes = [0xE0#8, 0x10#8, 0x00#8, 0x02#8, 0x02#8, 0x03#8] ∧
    (Response.txFrame goodFrame).bytes = [0x01#8, 0x00#8, 0x00#8, 0x00#8, 0x0B#8] ++ goodFrame := by decide

/-- 60_exceptions.md section 1: the sub-causes of F5, F14, F27, F31 and F34. -/
theorem test_abort_causes :
    abortCause 0xAA#8 (hunting .waitHeader2) = some .header ∧
    abortCause 0x02#8 (wll 0x01#8) = some .length ∧
    abortCause 0xB3#8 (mid .waitCrc2 3#16 0x10#8 [0x02#8, 0x03#8] 0x9F00#16) = some .checksum ∧
    abortCause 0xAA#8 (mid .waitEnd1 3#16 0x10#8 [0x02#8, 0x03#8] 0x9FB2#16) = some .trailerHi ∧
    abortCause 0xAB#8 (mid .waitEnd2 3#16 0x10#8 [0x02#8, 0x03#8] 0x9FB2#16) = some .trailerLo := by decide +kernel

/-! ### Construction and program text -/

/-- R12: 65534 is the largest legal value. -/
theorem test_construct_range :
    (construct ⟨0x1234#16, 0x5678#16, 65534, false⟩).isSome = true ∧
    construct ⟨0x1234#16, 0x5678#16, 65535, false⟩ = none := by decide

/-- R67: the frame of the most recent success, whatever answers stand after it; after a `.config` none
(notes/assumptions/19.md). -/
theorem test_feedsTx_takes_the_last_frame :
    (Line.feedsTx.issue twoFrames).map (·.requests) = some [[0x01#8, 0x02#8], [0x01#8, 0x03#8]] ∧
    (((Line.config ⟨0xAA55#16, 0x55AA#16, 2, false⟩).issue twoFrames).bind Line.feedsTx.issue).map
      (·.requests) = some [] := by decide

/-- An ENCODE that is still pending has no response yet, so its frame does not count (notes/assumptions/21.md). -/
theorem test_feedsTx_before_the_answer :
    (((Line.encode 0x10#8 [0x02#8]).issue wh1).bind Line.feedsTx.issue).map (·.requests) =
      some [[0x02#8, 0x10#8, 0x00#8, 0x01#8, 0x02#8]] := by decide

/-- R66 to R68, and program P1 of 95_test_vectors.md section 4. -/
theorem test_parse_encode :
    parseLine ['E', 'N', 'C', 'O', 'D', 'E', ' ', '0', 'x', '1', '0', ',', ' ', '[', '2', ',', '0', 'x', '0', '3', ']',
      ' ', ';', 'c'] = some [.encode 0x10#8 [0x02#8, 0x03#8]] := by decide

theorem test_parse_config :
    parseLine ['.', 'c', 'o', 'n', 'f', 'i', 'g', ' ', 'm', 'a', 'x', '=', '2', ',', ' ', 'c', 'r', 'c', '=', '0'] =
      some [.config ⟨0xAA55#16, 0x55AA#16, 2, false⟩] := by decide

/-! ### Witnesses: the hypotheses of each statement can be met -/

/-! The invariant holds of a state in each row of the table of R28. -/

theorem inv_hunting : (hunting .waitLengthHi).Inv := by
  refine ⟨?_, ?_, ?_, ?_, ?_, ?_, ?_, ?_, ?_⟩ <;> decide

theorem inv_new : wh1.Inv := by
  refine ⟨?_, ?_, ?_, ?_, ?_, ?_, ?_, ?_, ?_⟩ <;> decide

theorem inv_stale : { wh1 with pbuf := [(0, 0x02#8)] }.Inv := by
  refine ⟨?_, ?_, ?_, ?_, ?_, ?_, ?_, ?_, ?_⟩ <;> decide

theorem inv_lengthLo : (wll 0xFF#8).Inv := by
  refine ⟨?_, ?_, ?_, ?_, ?_, ?_, ?_, ?_, ?_⟩ <;> decide

theorem inv_cmd : (wcmd 257#16).Inv := by
  refine ⟨?_, ?_, ?_, ?_, ?_, ?_, ?_, ?_, ?_⟩ <;> decide

theorem inv_readData : (mid .readData 3#16 0x10#8 [0x02#8] 0#16).Inv := by
  refine ⟨?_, ?_, ?_, ?_, ?_, ?_, ?_, ?_, ?_⟩ <;> decide

theorem inv_crc1 : (mid .waitCrc1 3#16 0x10#8 [0x02#8, 0x03#8] 0#16).Inv := by
  refine ⟨?_, ?_, ?_, ?_, ?_, ?_, ?_, ?_, ?_⟩ <;> decide

theorem inv_crc2 : (mid .waitCrc2 3#16 0x10#8 [0x02#8, 0x03#8] 0x9F00#16).Inv := by
  refine ⟨?_, ?_, ?_, ?_, ?_, ?_, ?_, ?_, ?_⟩ <;> decide

theorem inv_end1 : (mid .waitEnd1 3#16 0x10#8 [0x02#8, 0x03#8] 0x9FB2#16).Inv := by
  refine ⟨?_, ?_, ?_, ?_, ?_, ?_, ?_, ?_, ?_⟩ <;> decide +kernel

theorem inv_end2 : (mid .waitEnd2 3#16 0x10#8 [0x02#8, 0x03#8] 0x9FB2#16).Inv := by
  refine ⟨?_, ?_, ?_, ?_, ?_, ?_, ?_, ?_, ?_⟩ <;> decide +kernel

theorem inv_end2_crcOff : (crcOff (mid .waitEnd2 1#16 0x10#8 [] 0#16)).Inv := by
  refine ⟨?_, ?_, ?_, ?_, ?_, ?_, ?_, ?_, ?_⟩ <;> decide

theorem inv_request :
    { mid .waitEnd2 3#16 0x10#8 [0x02#8, 0x03#8] 0x9FB2#16 with requests := [[0x01#8, 0xAA#8]] }.Inv := by
  refine ⟨?_, ?_, ?_, ?_, ?_, ?_, ?_, ?_, ?_⟩ <;> decide +kernel

theorem witness_StepRunsDecodedRequest :
    { wh1 with requests := [[0x01#8, 0xAA#8], [0x00#8]] }.requests = [0x01#8, 0xAA#8] :: [[0x00#8]] ∧
    decode [0x01#8, 0xAA#8] = .ok (.feed 0xAA#8) := by decide

theorem witness_IdleCoreHoldsItsState : wh1.requests = [] := by decide

/-- The smallest and the largest reserved selector. -/
theorem witness_ReservedSelectorIsRefused :
    4 ≤ (0x04#8 : Byte).toNat ∧ 4 ≤ (0xFF#8 : Byte).toNat ∧ ¬ 4 ≤ (0x03#8 : Byte).toNat ∧
    { wh1 with requests := [[0x04#8]] }.requests = [0x04#8] :: [] := by decide

/-- The counts where each clause begins and ends: no operand, one byte, and counts that just fit. -/
theorem witness_MalformedRequestIsRefused :
    (match decode [0x00#8] with | .ok _ => true | .error _ => false) = true ∧
    (match decode [0x01#8, 0xFF#8] with | .ok _ => true | .error _ => false) = true ∧
    (match decode [0x02#8, 0x00#8, 0x00#8, 0x00#8] with | .ok _ => true | .error _ => false) = true ∧
    (match decode [0x03#8, 0x00#8, 0x00#8, 0x00#8, 0x00#8] with | .ok _ => true | .error _ => false) = true ∧
    { wh1 with requests := [[]] }.requests = [] :: [] ∧
    (match decode [] with | .ok _ => true | .error _ => false) = false := by decide

theorem witness_DecodeOfEncode :
    (Instr.encode 0x10#8 [0x02#8]).wellFormed = true ∧ (Instr.checksum []).wellFormed = true ∧
    (Instr.feedReadData 0xFF#8).wellFormed = true := by decide

theorem witness_EncodeOfDecode : decode [0x03#8, 0x00#8, 0x00#8, 0x00#8, 0x00#8] = .ok (.checksum []) := by decide

/-- The first and the last unused code, and the last one in use. -/
theorem witness_DecoderStateCodes :
    10 ≤ (0xA#4 : BitVec 4).toNat ∧ 10 ≤ (0xF#4 : BitVec 4).toNat ∧ ¬ 10 ≤ (0x9#4 : BitVec 4).toNat := by decide

theorem witness_ResponseByteForms :
    goodFrame.length ≤ 65544 ∧ ([] : List Byte).length ≤ 65535 := by decide

theorem witness_ConstructionGivesInitialState :
    (⟨0x1234#16, 0x1234#16, 65534, true⟩ : Params).maxPayload ≤ 65534 ∧
    (⟨0x1234#16, 0x1234#16, 0, true⟩ : Params).maxPayload ≤ 65534 ∧
    65534 < (⟨0x1234#16, 0x1234#16, 65535, true⟩ : Params).maxPayload := by decide

theorem witness_ConstructionMeetsInvariant :
    construct (Config.defaultParams true) = some wh1 := by decide

theorem witness_StepKeepsTableOfR28 :
    { mid .waitEnd2 3#16 0x10#8 [0x02#8, 0x03#8] 0x9FB2#16 with requests := [[0x01#8, 0xAA#8]] }.Inv ∧
    (nextOf (step { mid .waitEnd2 3#16 0x10#8 [0x02#8, 0x03#8] 0x9FB2#16 with
      requests := [[0x01#8, 0xAA#8]] })).isSome = true := ⟨inv_request, by decide⟩

theorem witness_IndicesStayWithinBuffers :
    (wcmd 257#16).Inv ∧ (mid .readData 3#16 0x10#8 [0x02#8] 0#16).Inv := ⟨inv_cmd, inv_readData⟩

theorem witness_HuntingStatesHoldResetValues :
    construct (Config.defaultParams true) = some wh1 ∧
    (nextOf (Sys2Proof.core.run 1 { wh1 with requests := [[0x01#8, 0xAA#8]] })).map (·.dstate) =
      some .waitHeader2 := by decide

theorem witness_NoRunEverStops : construct (Config.defaultParams true) = some wh1 := by decide

theorem witness_BackInHuntBehavesAsNew :
    construct (Config.defaultParams true) = some wh1 ∧
    SameConfig { wh1 with pbuf := [(0, 0x02#8)] } wh1 ∧ { wh1 with pbuf := [(0, 0x02#8)] }.Inv ∧
    { wh1 with pbuf := [(0, 0x02#8)] }.dstate = .waitHeader1 :=
  ⟨by decide, by decide, inv_stale, rfl⟩

theorem witness_FeedIsTotal :
    (mid .readData 3#16 0x10#8 [0x02#8] 0#16).Inv ∧
    Instr.feedReadData 0x03#8 = feedRow .readData 0x03#8 := ⟨inv_readData, rfl⟩

theorem witness_FeedInWaitHeader1 : wh1.dstate = .waitHeader1 := by decide

theorem witness_FeedInWaitHeader2 : (hunting .waitHeader2).dstate = .waitHeader2 := by decide

theorem witness_FeedInWaitLengthHi : (hunting .waitLengthHi).dstate = .waitLengthHi := by decide

/-- Both clauses at their bounds: lengths 0, 1, `MAX_PAYLOAD` + 1 and `MAX_PAYLOAD` + 2. -/
theorem witness_FeedInWaitLengthLo :
    (wll 0x01#8).dstate = .waitLengthLo ∧ (wll 0x01#8).spanLen.toNat < (wll 0x01#8).cfgMaxPay.toNat + 3 ∧
    (join 0x01#8 0x01#8).toNat ≤ (wll 0x01#8).cfgMaxPay.toNat + 1 ∧
    ¬ (join 0x01#8 0x02#8).toNat ≤ (wll 0x01#8).cfgMaxPay.toNat + 1 ∧
    1 ≤ (join 0x00#8 0x01#8).toNat ∧ ¬ 1 ≤ (join 0x00#8 0x00#8).toNat := by decide

theorem witness_FeedInWaitCmd :
    (wcmd 1#16).dstate = .waitCmd ∧ (wcmd 1#16).spanLen.toNat < (wcmd 1#16).cfgMaxPay.toNat + 3 := by decide

theorem witness_FeedInReadData :
    (maxPay 2#16 (mid .readData 3#16 0x10#8 [0x02#8] 0#16)).dstate = .readData ∧
    (maxPay 2#16 (mid .readData 3#16 0x10#8 [0x02#8] 0#16)).idx.toNat < 2 ∧
    (maxPay 2#16 (mid .readData 3#16 0x10#8 [0x02#8] 0#16)).spanLen.toNat < 2 + 3 := by decide

theorem witness_FeedInWaitCrc1 :
    (mid .waitCrc1 3#16 0x10#8 [0x02#8, 0x03#8] 0#16).dstate = .waitCrc1 := by decide

theorem witness_FeedInWaitCrc2 :
    (mid .waitCrc2 3#16 0x10#8 [0x02#8, 0x03#8] 0x9F00#16).dstate = .waitCrc2 ∧
    (mid .waitCrc2 3#16 0x10#8 [0x02#8, 0x03#8] 0x9F00#16).spanLen.toNat ≤ 256 + 3 ∧
    (mid .waitCrc2 3#16 0x10#8 [0x02#8, 0x03#8] 0x9F00#16).span.readRange 5 =
      some [0x00#8, 0x03#8, 0x10#8, 0x02#8, 0x03#8] := by decide

theorem witness_FeedInWaitEnd1 :
    (mid .waitEnd1 3#16 0x10#8 [0x02#8, 0x03#8] 0x9FB2#16).dstate = .waitEnd1 := by decide

/-- Both clauses, the first with an empty payload and with the largest one. -/
theorem witness_FeedInWaitEnd2 :
    (mid .waitEnd2 1#16 0x01#8 [] 0xEF8C#16).dstate = .waitEnd2 ∧ (0xAA#8 : Byte) = lo wh1.cfgTrailer ∧
    (mid .waitEnd2 1#16 0x01#8 [] 0xEF8C#16).pbuf.readRange 0 = some [] ∧
    (maxPay 2#16 (mid .waitEnd2 3#16 0x10#8 [0x02#8, 0x03#8] 0#16)).idx.toNat ≤ 2 ∧
    (maxPay 2#16 (mid .waitEnd2 3#16 0x10#8 [0x02#8, 0x03#8] 0#16)).pbuf.readRange 2 =
      some [0x02#8, 0x03#8] ∧
    (0xAB#8 : Byte) ≠ lo wh1.cfgTrailer := by decide

/-- Each clause just outside its buffer, and with an unwritten byte. -/
theorem witness_OutsideTheBuffersFeedStops :
    256 + 3 ≤ { wll 0x00#8 with spanLen := 259#17 }.spanLen.toNat ∧
    256 ≤ { mid .readData 3#16 0x10#8 [] 0#16 with idx := 256#16 }.idx.toNat ∧
    256 + 3 ≤ { mid .readData 3#16 0x10#8 [] 0#16 with spanLen := 259#17 }.spanLen.toNat ∧
    256 + 3 < { mid .waitCrc2 3#16 0x10#8 [] 0#16 with spanLen := 260#17 }.spanLen.toNat ∧
    { mid .waitCrc2 3#16 0x10#8 [] 0#16 with spanLen := 4#17 }.span.readRange 4 = none ∧
    256 < { mid .waitEnd2 3#16 0x10#8 [] 0#16 with idx := 257#16 }.idx.toNat ∧
    { mid .waitEnd2 3#16 0x10#8 [] 0#16 with idx := 1#16 }.pbuf.readRange 1 = none := by decide

/-- The clause about the invariant, in each state it speaks of. -/
theorem witness_OutsideTheBuffersFeedStops_inv :
    ((wll 0xFF#8).Inv ∧ (wll 0xFF#8).dstate = .waitLengthLo) ∧
    ((wcmd 257#16).Inv ∧ (wcmd 257#16).dstate = .waitCmd) ∧
    ((mid .readData 3#16 0x10#8 [0x02#8] 0#16).Inv ∧
      (mid .readData 3#16 0x10#8 [0x02#8] 0#16).dstate = .readData) ∧
    ((mid .waitCrc2 3#16 0x10#8 [0x02#8, 0x03#8] 0x9F00#16).Inv ∧
      (mid .waitCrc2 3#16 0x10#8 [0x02#8, 0x03#8] 0x9F00#16).dstate = .waitCrc2) ∧
    ((mid .waitEnd2 3#16 0x10#8 [0x02#8, 0x03#8] 0x9FB2#16).Inv ∧
      (mid .waitEnd2 3#16 0x10#8 [0x02#8, 0x03#8] 0x9FB2#16).dstate = .waitEnd2) :=
  ⟨⟨inv_lengthLo, rfl⟩, ⟨inv_cmd, rfl⟩, ⟨inv_readData, rfl⟩, ⟨inv_crc2, rfl⟩, ⟨inv_end2, rfl⟩⟩

theorem witness_OneByteChangeChangesChecksum : (0x02#8 : Byte) ≠ 0x03#8 := by decide

theorem witness_EncodeAnswersTheFrame :
    ([0x01#8, 0x02#8] : List Byte).length ≤ (maxPay 2#16 wh1).cfgMaxPay.toNat ∧
    ([] : List Byte).length ≤ (maxPay 0#16 wh1).cfgMaxPay.toNat := by decide

theorem witness_EncodeRejectsLongPayload :
    (maxPay 0#16 wh1).cfgMaxPay.toNat < ([0x00#8] : List Byte).length := by decide

theorem witness_FrameLengthIsPayloadPlusOverhead :
    ([0x01#8, 0x02#8] : List Byte).length ≤ (maxPay 2#16 wh1).cfgMaxPay.toNat := by decide

theorem witness_EncodedFrameHasLegalLength :
    wh1.cfgMaxPay.toNat ≤ 65534 ∧
    (after (.encode 0x10#8 [0x02#8, 0x03#8]) wh1).map (·.outputs) =
      some (wh1.outputs ++ [.response (.txFrame goodFrame)]) := by decide +kernel

theorem witness_EncodeAndChecksumIgnoreTheContext :
    SameConfig wh1 (mid .readData 3#16 0x10#8 [0x02#8] 0#16) := by decide

theorem witness_ConfigurationNeverChanges :
    (after (.feed 0xAA#8) wh1).isSome = true ∧ (nextOf (step wh1)).isSome = true := by decide

theorem witness_OnlyEncodeWritesScratch :
    (after .reset { wh1 with scratch := [(0, 0xAA#8)] }).isSome = true ∧
    ∀ c p, Instr.reset ≠ .encode c p := ⟨by decide, fun _ _ h => nomatch h⟩

theorem witness_OneResponsePerOperation :
    (after (.feed 0xAA#8) (mid .waitEnd2 3#16 0x10#8 [0x02#8, 0x03#8] 0x9FB2#16)).map (·.events) =
      some [.packet 0x10#8 [0x02#8, 0x03#8]] := by decide

theorem witness_OnlyLongPayloadIsReported :
    (after (.encode 0x42#8 [0x00#8]) (maxPay 0#16 wh1)).map (·.outputs) =
      some ([] ++ [.response .errPayloadTooLong]) := by decide

theorem witness_OnlyValidFramesAreDelivered :
    (mid .waitEnd2 3#16 0x10#8 [0x02#8, 0x03#8] 0x9FB2#16).Inv ∧
    (after (.feed 0xAA#8) (mid .waitEnd2 3#16 0x10#8 [0x02#8, 0x03#8] 0x9FB2#16)).map (·.outputs) =
      some ([] ++ [.event (.packet 0x10#8 [0x02#8, 0x03#8]), .response .ack]) :=
  ⟨inv_end2, by decide⟩

theorem witness_FrameVisitsTheStatesInOrder :
    wh1.cfgMaxPay.toNat ≤ 65534 ∧ ([0x02#8, 0x03#8] : List Byte).length ≤ wh1.cfgMaxPay.toNat ∧
    wh1.dstate = .waitHeader1 ∧
    goodFrame = frame wh1.cfgHeader wh1.cfgTrailer wh1.cfgCrcEn 0x10#8 [0x02#8, 0x03#8] := by decide +kernel

/-- The default magic for the first two clauses, 0xAAAA (95_test_vectors.md section 3.8) for the third. -/
theorem witness_EncodedFrameRoundTrips :
    SameConfig wh1 wh1 ∧ wh1.dstate = .waitHeader1 ∧ (hunting .waitHeader2).dstate = .waitHeader2 ∧
    (after (.encode 0x10#8 [0x02#8, 0x03#8]) wh1).map (·.outputs) =
      some (wh1.outputs ++ [.response (.txFrame goodFrame)]) ∧
    hi wh1.cfgHeader ≠ lo wh1.cfgHeader ∧
    (after (.encode 0x01#8 []) { hunting .waitHeader2 with cfgHeader := 0xAAAA#16 }).isSome = true ∧
    hi (0xAAAA#16 : Word) = lo (0xAAAA#16 : Word) := by decide +kernel

theorem witness_NoiseBeforeAFrameIsHarmless :
    (∀ x ∈ [0x55#8, 0x00#8], x ≠ hi wh1.cfgHeader) ∧ wh1.dstate = .waitHeader1 ∧
    wh1.cfgMaxPay.toNat ≤ 65534 ∧ ([] : List Byte).length ≤ wh1.cfgMaxPay.toNat := by decide

theorem witness_OneByteCorruptionIsNeverDelivered :
    wh1.cfgCrcEn = true ∧ wh1.dstate = .waitHeader1 ∧
    (0x10#8 :: [0x02#8, 0x03#8] : List Byte) = [0x10#8, 0x02#8] ++ 0x03#8 :: [] ∧
    (0x03#8 : Byte) ≠ 0x02#8 ∧ ([0x02#8, 0x03#8] : List Byte).length ≤ wh1.cfgMaxPay.toNat ∧
    wh1.cfgMaxPay.toNat ≤ 65534 := by decide

theorem witness_LengthCorruptionCanBeDelivered :
    construct (Config.defaultParams true) = some wh1 := by decide

theorem witness_GapFreeFramesAreLostAfterAnAbort :
    (hunting .waitHeader2).dstate = .waitHeader2 ∧ hi wh1.cfgHeader ≠ lo wh1.cfgHeader ∧
    lo wh1.cfgTrailer = hi wh1.cfgHeader ∧
    (∀ body ∈ [[0x55#8, 0x00#8, 0x01#8, 0x01#8, 0xEF#8, 0x8C#8, 0x55#8]], ∀ x ∈ body, x ≠ hi wh1.cfgHeader) ∧
    (0x00#8 : Byte) ≠ lo wh1.cfgHeader := by decide

theorem witness_FiveFeedsLeaveThePayload :
    { wh1 with pbuf := [(0, 0x02#8)] }.Inv ∧ { wh1 with pbuf := [(0, 0x02#8)] }.dstate = .waitHeader1 ∧
    (goodFrame.take 5).length ≤ 5 := ⟨inv_stale, rfl, by decide⟩

/-- Two states that differ in a stale byte of each buffer. -/
theorem witness_StaleBytesAreUnobservable :
    SameButStale { wh1 with requests := [[0x01#8, 0xAA#8]] }
      { wh1 with
        requests := [[0x01#8, 0xAA#8]], pbuf := [(0, 0x02#8)], span := [(4, 0x03#8)], scratch := [(0, 0xAA#8)] } :=
  ⟨by decide, by decide, rfl, rfl, rfl, fun _ h => absurd h (Nat.not_lt_zero _),
    fun _ h => absurd h (Nat.not_lt_zero _)⟩

theorem witness_RunningRegisterIsEquivalent :
    (mid .waitCrc2 3#16 0x10#8 [0x02#8, 0x03#8] 0x9F00#16).Inv ∧
    RunningState.StandsFor
      { machine := { mid .waitCrc2 3#16 0x10#8 [0x02#8, 0x03#8] 0x9F00#16 with span := [], spanLen := 0#17 }
        crcRun := 0x9FB2#16 }
      (mid .waitCrc2 3#16 0x10#8 [0x02#8, 0x03#8] 0x9F00#16) :=
  ⟨inv_crc2, by decide, by decide +kernel⟩

theorem witness_CoresShareNoState :
    (match (Fleet.mk [wh1, { wh1 with requests := [[0x00#8]] }]).stepAt 1 with
      | .next z => z.members[0]? == some wh1
      | .fault _ => false
      | .refused _ => false) = true := by decide

/-- Two frames among other responses, the later one found, with a frame of no later response; and none. -/
theorem witness_PseudoInstructionsExpand :
    twoFrames.responses =
      [.txFrame [0x01#8], .ack, .errPayloadTooLong] ++ .txFrame [0x02#8, 0x03#8] :: [.refused, .crc 0#16] ∧
    (∀ g, Response.txFrame g ∉ ([.refused, .crc 0#16] : List Response)) ∧
    (∀ g, Response.txFrame g ∉
      { wh1 with outputs := [.response .ack, .response .errPayloadTooLong] }.responses) :=
  ⟨by decide, fun g h => by simp at h, fun g h => by simp [State.responses, responsesOf] at h⟩

end Sys2Proof.Tests
end

section
/-!
SUPPORT. What one step, one operation, one state rule, construction and a step of a fleet can do, each said once,
and the statements of 00_scope.md assembled from these.
-/

namespace Sys2Proof.Machine

/-! ### What a step can do (R3, R64, R123) -/

theorem step_of_decode_ok {s : State} {r : Request} {rest : List Request} {i : Instr}
    (hr : s.requests = r :: rest) (hd : decode r = .ok i) :
    step s = exec i { s with requests := rest } := by
  simp [step, State.takeRequest_cons hr, hd]

theorem step_of_decode_error {s : State} {r : Request} {rest : List Request} {e : DecodeError}
    (hr : s.requests = r :: rest) (hd : decode r = .error e) :
    step s = .next (State.respond { s with requests := rest } .refused) := by
  simp [step, State.takeRequest_cons hr, hd]

theorem step_of_requests_nil {s : State} (hr : s.requests = []) : step s = .next s := by
  simp [step, State.takeRequest_nil hr]

/-- A step that goes on was idle, ran the operation of the oldest request, or refused that request. -/
theorem step_next_cases {s t : State} (h : step s = .next t) :
    (s.requests = [] ∧ t = s) ∨
    ∃ r rest, s.requests = r :: rest ∧
      ((∃ i, decode r = .ok i ∧ exec i { s with requests := rest } = .next t) ∨
       (∃ e, decode r = .error e ∧ t = State.respond { s with requests := rest } .refused)) := by
  cases hr : s.requests with
  | nil =>
    rw [step_of_requests_nil hr] at h
    exact .inl ⟨rfl, (Host.Outcome.next.inj h).symm⟩
  | cons r rest =>
    refine .inr ⟨r, rest, rfl, ?_⟩
    cases hd : decode r with
    | ok i =>
      rw [step_of_decode_ok hr hd] at h
      exact .inl ⟨i, rfl, h⟩
    | error e =>
      rw [step_of_decode_error hr hd] at h
      exact .inr ⟨e, rfl, (Host.Outcome.next.inj h).symm⟩

/-! ### What an operation can do -/

/-- ENCODE of a payload that fits writes the frame of R46 to the scratch buffer and gives it back. -/
theorem execEncode_of_fits {s : State} {c : Byte} {p : List Byte} (h : ¬ s.TooLong p) :
    execEncode c p s =
      let f := frame s.cfgHeader s.cfgTrailer s.cfgCrcEn c p
      .next (State.respond
        { s with
          scratch := s.scratch.writeAll 0 f
          crcAcc := if s.cfgCrcEn then none else s.crcAcc } (.txFrame f)) := by
  rw [execEncode, if_neg h, State.checksumField_eq]
  rfl

theorem execEncode_of_tooLong {s : State} {c : Byte} {p : List Byte} (h : s.TooLong p) :
    execEncode c p s = .next (s.respond .errPayloadTooLong) := if_pos h

theorem execChecksum_eq (d : List Byte) (s : State) :
    execChecksum d s = .next (State.respond { s with crcAcc := none } (.crc (checksum d))) := by
  rw [execChecksum, State.runChecksum_eq]

/-- The test a row makes on `dstate` selects between two ways to say FEED (R57, R82). -/
theorem ite_dstate_finishFeed (d : DState) (b : Byte) (s : State) :
    (if s.dstate = d then finishFeed (ruleOf d b s) else execFeed b s) = execFeed b s := by
  split
  · exact (execFeed_eq b ‹_›).symm
  · rfl

/-- An operation does what the request that carries it asks for: a row of FEED is FEED (R57, R60). -/
theorem exec_requestForm (i : Instr) (s : State) : exec i.requestForm s = exec i s := by
  cases i with
  | reset | feed | encode | checksum => rfl
  | feedWaitHeader1 b => exact (ite_dstate_finishFeed .waitHeader1 b s).symm
  | feedWaitHeader2 b => exact (ite_dstate_finishFeed .waitHeader2 b s).symm
  | feedWaitLengthHi b => exact (ite_dstate_finishFeed .waitLengthHi b s).symm
  | feedWaitLengthLo b => exact (ite_dstate_finishFeed .waitLengthLo b s).symm
  | feedWaitCmd b => exact (ite_dstate_finishFeed .waitCmd b s).symm
  | feedReadData b => exact (ite_dstate_finishFeed .readData b s).symm
  | feedWaitCrc1 b => exact (ite_dstate_finishFeed .waitCrc1 b s).symm
  | feedWaitCrc2 b => exact (ite_dstate_finishFeed .waitCrc2 b s).symm
  | feedWaitEnd1 b => exact (ite_dstate_finishFeed .waitEnd1 b s).symm
  | feedWaitEnd2 b => exact (ite_dstate_finishFeed .waitEnd2 b s).symm

/-- A request carries one of the four operations of R2. -/
theorem requestForm_cases (i : Instr) :
    (∃ b, i.requestForm = .feed b) ∨ i.requestForm = .reset ∨
    (∃ c p, i.requestForm = .encode c p) ∨ (∃ d, i.requestForm = .checksum d) := by
  cases i <;> simp [Instr.requestForm]

/-- What an operation that answers a next state has done: FEED by the rule of `dstate`, RESET, ENCODE of a
payload that is too long or fits, or CHECKSUM. -/
theorem exec_next_cases {i : Instr} {s t : State} (h : exec i s = .next t) :
    (∃ b u, i.requestForm = .feed b ∧ ruleOf s.dstate b s = .ok u ∧ t = u.respond .ack) ∨
    (i.requestForm = .reset ∧ t = s.hunt.respond .ack) ∨
    (∃ c p, i.requestForm = .encode c p ∧ s.TooLong p ∧ t = s.respond .errPayloadTooLong) ∨
    (∃ c p f, i.requestForm = .encode c p ∧ ¬ s.TooLong p ∧
      f = frame s.cfgHeader s.cfgTrailer s.cfgCrcEn c p ∧
      t = State.respond
        { s with
          scratch := s.scratch.writeAll 0 f
          crcAcc := if s.cfgCrcEn then none else s.crcAcc } (.txFrame f)) ∨
    (∃ d, i.requestForm = .checksum d ∧
      t = State.respond { s with crcAcc := none } (.crc (checksum d))) := by
  rw [← exec_requestForm] at h
  rcases requestForm_cases i with ⟨b, hi⟩ | hi | ⟨c, p, hi⟩ | ⟨d, hi⟩ <;> rw [hi] at h
  · obtain ⟨u, hu, ht⟩ := finishFeed_next.1 h
    exact .inl ⟨b, u, hi, hu, ht⟩
  · exact .inr (.inl ⟨hi, (Host.Outcome.next.inj h).symm⟩)
  · by_cases hp : s.TooLong p
    · have ht := Host.Outcome.next.inj ((execEncode_of_tooLong hp).symm.trans h)
      exact .inr (.inr (.inl ⟨c, p, hi, hp, ht.symm⟩))
    · have ht := Host.Outcome.next.inj ((execEncode_of_fits hp).symm.trans h)
      exact .inr (.inr (.inr (.inl ⟨c, p, _, hi, hp, rfl, ht.symm⟩)))
  · have ht := Host.Outcome.next.inj ((execChecksum_eq d s).symm.trans h)
    exact .inr (.inr (.inr (.inr ⟨d, hi, ht.symm⟩)))

/-! ### What a rule of the decoder leaves unchanged -/

/-- The part of a state outside the decoder: the configuration, the scratch buffer and the host's side. -/
def State.outside (s : State) :
    (Word × Word × Word × Bool) × Memory × List Request × List Output :=
  ((s.cfgHeader, s.cfgTrailer, s.cfgMaxPay, s.cfgCrcEn), s.scratch, s.requests, s.outputs)

theorem outside_eq_iff {s t : State} :
    s.outside = t.outside ↔
      SameConfig s t ∧ s.scratch = t.scratch ∧ s.requests = t.requests ∧ s.outputs = t.outputs := by
  simp [State.outside]

theorem outside_ite {c : Prop} [Decidable c] {s t u : State} (ht : s.outside = t.outside)
    (hu : s.outside = u.outside) : s.outside = (if c then t else u).outside := by
  split <;> assumption

/-- A rule changes nothing outside the decoder, or it is the delivery of R93. -/
theorem ruleOf_ok {d : DState} {b : Byte} {s t : State} (h : ruleOf d b s = .ok t) :
    s.outside = t.outside ∨
    (d = .waitEnd2 ∧ b = lo s.cfgTrailer ∧ ∃ p, s.payload? = some p ∧
      t = (s.emit (.packet s.cmdReg p)).hunt) := by
  cases d with
  | waitHeader1 | waitHeader2 | waitEnd1 =>
    obtain rfl := Except.ok.inj h
    exact .inl (outside_ite rfl rfl)
  | waitLengthHi | waitCrc1 =>
    obtain rfl := Except.ok.inj h
    exact .inl rfl
  | waitLengthLo =>
    obtain ⟨-, rfl⟩ := ruleWaitLengthLo_ok h
    exact .inl (outside_ite rfl rfl)
  | waitCmd =>
    obtain ⟨-, rfl⟩ := ruleWaitCmd_ok h
    exact .inl rfl
  | readData =>
    obtain ⟨-, -, rfl⟩ := ruleReadData_ok h
    exact .inl (outside_ite rfl rfl)
  | waitCrc2 =>
    obtain ⟨_, -, -, rfl⟩ := ruleWaitCrc2_ok h
    exact .inl (outside_ite rfl rfl)
  | waitEnd2 =>
    rcases ruleWaitEnd2_ok h with ⟨hb, p, -, hp, ht⟩ | ⟨-, rfl⟩
    · exact .inr ⟨rfl, hb, p, hp, ht⟩
    · exact .inl rfl

/-- No rule of the decoder writes a configuration register (R7). -/
theorem ruleOf_sameConfig {d : DState} {b : Byte} {s t : State} (h : ruleOf d b s = .ok t) :
    SameConfig s t := by
  rcases ruleOf_ok h with hs | ⟨-, -, p, -, rfl⟩
  · exact (outside_eq_iff.1 hs).1
  · exact ⟨rfl, rfl, rfl, rfl⟩

/-! ### Configuration and responses -/

theorem exec_sameConfig {i : Instr} {s t : State} (h : exec i s = .next t) : SameConfig s t := by
  rcases exec_next_cases h with ⟨b, u, -, hu, rfl⟩ | ⟨-, rfl⟩ | ⟨c, p, -, -, rfl⟩ |
    ⟨c, p, f, -, -, -, rfl⟩ | ⟨d, -, rfl⟩
  · exact (ruleOf_sameConfig hu : SameConfig s u)
  all_goals exact ⟨rfl, rfl, rfl, rfl⟩

/-- Settles O45: every case of an operation, and of a step, leaves the four registers. -/
theorem configurationNeverChanges : Obligations.ConfigurationNeverChanges := by
  refine ⟨fun i s t h => exec_sameConfig h, fun s t h => ?_⟩
  rcases step_next_cases h with ⟨-, rfl⟩ | ⟨r, rest, -, ⟨i, -, hi⟩ | ⟨e, -, rfl⟩⟩
  · exact ⟨rfl, rfl, rfl, rfl⟩
  · exact (exec_sameConfig hi : SameConfig { s with requests := rest } t)
  · exact ⟨rfl, rfl, rfl, rfl⟩

theorem respond_outputs_without_event {s u : State} (r : Response) (h : s.outputs = u.outputs) :
    (u.respond r).outputs =
      s.outputs ++ ([] : List Event).map Output.event ++ [Output.response r] := by
  simp [h]

/-- Settles O47: every operation ends by `respond`, and the delivery of R93 is the only case with an event. -/
theorem oneResponsePerOperation : Obligations.OneResponsePerOperation := by
  intro i s t h
  rcases exec_next_cases h with ⟨b, u, hi, hu, rfl⟩ | ⟨-, rfl⟩ | ⟨c, p, -, -, rfl⟩ |
    ⟨c, p, f, -, -, -, rfl⟩ | ⟨d, -, rfl⟩
  · rcases ruleOf_ok hu with hs | ⟨hd, rfl, p, -, rfl⟩
    · obtain ⟨-, -, -, hout⟩ := outside_eq_iff.1 hs
      exact ⟨[], _, respond_outputs_without_event _ hout, Nat.zero_le _, absurd rfl⟩
    · exact ⟨[.packet s.cmdReg p], .ack, rfl, Nat.le_refl _, fun _ => ⟨hd, hi⟩⟩
  all_goals exact ⟨[], _, respond_outputs_without_event _ rfl, Nat.zero_le _, absurd rfl⟩

/-- Settles O1, which is the case of a request that decodes. -/
theorem stepRunsDecodedRequest : Obligations.StepRunsDecodedRequest :=
  fun _ _ _ _ hr hd => step_of_decode_ok hr hd

/-! ### Construction (R5) -/

theorem construct_of_illegal {p : Params} (h : ¬ p.Legal) : construct p = none := if_neg h

theorem construct_of_legal {p : Params} (h : p.Legal) :
    construct p = some { State.reset with
      cfgHeader := p.header
      cfgTrailer := p.trailer
      cfgMaxPay := BitVec.ofNat 16 p.maxPayload
      cfgCrcEn := p.checksumEnabled } := if_pos h

/-- Settles O10: a legal maximum fits its 16-bit register, and every other register is that of the reset state. -/
theorem constructionGivesInitialState : Obligations.ConstructionGivesInitialState := by
  refine ⟨fun _ => rfl, fun p hp => construct_of_illegal (Nat.not_le.2 hp), fun p hp => ?_⟩
  have hmax : (BitVec.ofNat 16 p.maxPayload).toNat = p.maxPayload :=
    Nat.mod_eq_of_lt (by omega)
  exact ⟨_, construct_of_legal hp, rfl, rfl, hmax, rfl, rfl, rfl, rfl, rfl, rfl, rfl⟩

/-! ### Several cores (R8, R121) -/

/-- A step of a fleet at a position leaves the fleet, where no core is there, or replaces that core by its next
state. -/
theorem Fleet.stepAt_next_cases {y z : Fleet} {k : Nat} (h : y.stepAt k = .next z) :
    (y.members[k]? = none ∧ z = y) ∨
    ∃ s t, y.members[k]? = some s ∧ step s = .next t ∧ z = { members := y.members.set k t } := by
  unfold Fleet.stepAt at h
  split at h
  · rename_i s hs
    split at h
    · exact .inr ⟨s, _, hs, ‹_›, (Host.Outcome.next.inj h).symm⟩
    · cases h
    · cases h
  · exact .inl ⟨‹_›, (Host.Outcome.next.inj h).symm⟩

/-- Settles O59: setting one position of the list of cores keeps its length and every other position. -/
theorem coresShareNoState : Obligations.CoresShareNoState := by
  intro y z k h
  rcases Fleet.stepAt_next_cases h with ⟨-, rfl⟩ | ⟨s, t, -, -, rfl⟩
  · exact ⟨rfl, fun _ _ => rfl⟩
  · exact ⟨List.length_set, fun j hj => List.getElem?_set_ne hj.symm⟩

end Sys2Proof.Machine
end

section
/-!
SUPPORT. The buffer operations where they stop, the rules of the decoder that append as equations, and runs:
facts about the model's definitions that the invariant and the comparison of two states both rest on.
-/

namespace Sys2Proof.Machine

/-! ### Counters and buffers -/

@[simp] theorem lo_zero : lo 0x0000#16 = 0x00#8 := rfl

theorem toNat_add_one {w : Nat} {n : BitVec w} (h : n.toNat + 1 < 2 ^ w) :
    (n + 1#w).toNat = n.toNat + 1 := by
  rw [BitVec.toNat_add, BitVec.toNat_ofNat, Nat.add_mod_mod, Nat.mod_eq_of_lt h]

/-- A byte appended where a counter points, with the counter advanced. -/
theorem readRange_append {w : Nat} {n : BitVec w} {m : Memory} {bytes : List Byte} (b : Byte)
    (hn : n.toNat + 1 < 2 ^ w) (h : m.readRange n.toNat = some bytes) :
    (m.write n.toNat b).readRange (n + 1#w).toNat = some (bytes ++ [b]) := by
  rw [toNat_add_one hn, Memory.readRange_write_end b h]

theorem State.appendSpan_of_not_lt {s : State} (b : Byte) (h : ¬ s.spanLen.toNat < s.spanCap) :
    s.appendSpan b = .error .spanOutside := if_neg h

theorem State.appendPayload_of_not_lt {s : State} (b : Byte) (h : ¬ s.idx.toNat < s.pbufCap) :
    s.appendPayload b = .error .pbufOutside := if_neg h

theorem State.readSpan_of_lt {s : State} (h : s.spanCap < s.spanLen.toNat) :
    s.readSpan = .error .spanOutside := if_neg (Nat.not_le.2 h)

theorem State.readPayload_of_lt {s : State} (h : s.pbufCap < s.idx.toNat) :
    s.readPayload = .error .pbufOutside := if_neg (Nat.not_le.2 h)

theorem State.readSpan_of_none {s : State} (hcap : s.spanLen.toNat ≤ s.spanCap)
    (h : s.span.readRange s.spanLen.toNat = none) : s.readSpan = .error .spanUnwritten := by
  rw [State.readSpan, if_pos hcap, h]

theorem State.readPayload_of_none {s : State} (hcap : s.idx.toNat ≤ s.pbufCap)
    (h : s.pbuf.readRange s.idx.toNat = none) : s.readPayload = .error .pbufUnwritten := by
  rw [State.readPayload, if_pos hcap, h]

/-! ### The rules that append to a buffer, whether or not they stop -/

theorem ruleWaitLengthLo_eq (b : Byte) (s : State) :
    ruleWaitLengthLo b s =
      if s.spanLen.toNat < s.spanCap then
        .ok (checkLength { s with
          span := s.span.write s.spanLen.toNat b
          spanLen := s.spanLen + 1#17
          lenReg := setLo s.lenReg b })
      else .error .spanOutside := by
  by_cases h : s.spanLen.toNat < s.spanCap
  · rw [if_pos h, ruleWaitLengthLo, State.appendSpan_of_lt b h]
  · rw [if_neg h, ruleWaitLengthLo, State.appendSpan_of_not_lt b h]

theorem ruleWaitCmd_eq (b : Byte) (s : State) :
    ruleWaitCmd b s =
      if s.spanLen.toNat < s.spanCap then
        .ok { s with
          span := s.span.write s.spanLen.toNat b
          spanLen := s.spanLen + 1#17
          cmdReg := b
          idx := 0x0000#16
          dstate := if s.NoPayload then s.afterPayload else .readData }
      else .error .spanOutside := by
  by_cases h : s.spanLen.toNat < s.spanCap
  · rw [if_pos h, ruleWaitCmd, State.appendSpan_of_lt b h]
  · rw [if_neg h, ruleWaitCmd, State.appendSpan_of_not_lt b h]

theorem ruleReadData_eq (b : Byte) (s : State) :
    ruleReadData b s =
      if s.idx.toNat < s.pbufCap then
        if s.spanLen.toNat < s.spanCap then
          .ok (checkPayload { s with
            pbuf := s.pbuf.write s.idx.toNat b
            idx := s.idx + 1#16
            span := s.span.write s.spanLen.toNat b
            spanLen := s.spanLen + 1#17 })
        else .error .spanOutside
      else .error .pbufOutside := by
  by_cases hidx : s.idx.toNat < s.pbufCap
  · have hspan : State.appendSpan { s with pbuf := s.pbuf.write s.idx.toNat b, idx := s.idx + 1#16 } b =
        if s.spanLen.toNat < s.spanCap then
          .ok { s with
            pbuf := s.pbuf.write s.idx.toNat b
            idx := s.idx + 1#16
            span := s.span.write s.spanLen.toNat b
            spanLen := s.spanLen + 1#17 }
        else .error .spanOutside := rfl
    simp only [ruleReadData, State.appendPayload_of_lt b hidx, hspan, if_pos hidx]
    by_cases hlen : s.spanLen.toNat < s.spanCap <;> simp [hlen]
  · rw [if_neg hidx, ruleReadData, State.appendPayload_of_not_lt b hidx]

/-! ### FEED, ENCODE and runs -/

theorem exec_feed_of_error {d : DState} {b : Byte} {s : State} {f : Fault} (hd : s.dstate = d)
    (h : ruleOf d b s = .error f) : exec (.feed b) s = .fault f := by
  rw [exec, execFeed_eq b hd, h, finishFeed]

/-- A FEED that gives an event and `Ack` is the delivery of R93. -/
theorem exec_feed_delivers {b c : Byte} {p : List Byte} {s t : State} (h : exec (.feed b) s = .next t)
    (hout : t.outputs = s.outputs ++ [Output.event (.packet c p), Output.response .ack]) :
    s.dstate = .waitEnd2 ∧ b = lo s.cfgTrailer ∧ c = s.cmdReg ∧ s.payload? = some p := by
  obtain ⟨u, hu, rfl⟩ := finishFeed_next.1 h
  rcases ruleOf_ok hu with hs | ⟨hd, hb, q, hq, rfl⟩
  · obtain ⟨-, -, -, hsame⟩ := outside_eq_iff.1 hs
    simp [← hsame] at hout
  · obtain ⟨rfl, rfl⟩ : s.cmdReg = c ∧ q = p := by simpa using hout
    exact ⟨hd, hb, rfl, hq⟩

theorem frame_length (header trailer : Word) (crcEn : Bool) (c : Byte) (p : List Byte) :
    (frame header trailer crcEn c p).length = p.length + if crcEn then 9 else 7 := by
  cases crcEn <;> simp [frame] <;> omega

theorem frame_length_le_scratchCap {s : State} (c : Byte) {p : List Byte} (h : ¬ s.TooLong p) :
    (frame s.cfgHeader s.cfgTrailer s.cfgCrcEn c p).length ≤ s.scratchCap := by
  rw [frame_length, State.scratchCap]
  split <;> omega

/-- A run of one step more that goes on: the first step goes on, and so do the others. -/
theorem run_succ_next_iff {M : Host.Core} {k : Nat} {s t : M.State} :
    M.run (k + 1) s = .next t ↔ ∃ u, M.step s = .next u ∧ M.run k u = .next t := by
  rw [Host.Core.run]
  cases M.step s <;> simp

/-- What every step keeps, every run keeps. -/
theorem run_keeps {M : Host.Core} {P : M.State → Prop} (hstep : ∀ s t, P s → M.step s = .next t → P t)
    {k : Nat} {s t : M.State} (hs : P s) (h : M.run k s = .next t) : P t := by
  induction k generalizing s with
  | zero => exact Host.Outcome.next.inj h ▸ hs
  | succ k ih =>
    obtain ⟨u, hu, hrun⟩ := run_succ_next_iff.1 h
    exact ih (hstep s u hs hu) hrun

end Sys2Proof.Machine
end

section
/-!
SUPPORT. The invariant of R27 and R28 read off row by row, its preservation by each operation and each step, and
the statements of 10_state.md that follow from it.
-/

namespace Sys2Proof.Machine

/-! ### The invariant as one row of the table -/

/-- The clauses of the invariant that hold in every decoder state: a legal configuration (R12), no accumulator
(R23), buffers within their capacity (R20, R21, R22). -/
def State.Sound (s : State) : Prop :=
  s.cfgMaxPay.toNat ≤ Config.maxPayloadLimit ∧ s.crcAcc = none ∧ s.BuffersFit

/-- The columns of R28 from READ_DATA on that no FEED changes until the frame is over. -/
def State.FrameHeld (s : State) : Prop := s.LengthLegal ∧ s.PayloadComplete ∧ s.SpanHoldsFrame

/-- The row that the table of R28 has for a decoder state. -/
def State.TableRow (s : State) : DState → Prop
  | .waitHeader1 | .waitHeader2 | .waitLengthHi => s.RegistersCleared
  | .waitLengthLo =>
    lo s.lenReg = 0x00#8 ∧ s.cmdReg = 0x00#8 ∧ s.idx = 0x0000#16 ∧ s.rxCrc = 0x0000#16 ∧
    s.spanLen = 1#17 ∧ s.span? = some [hi s.lenReg]
  | .waitCmd =>
    s.LengthLegal ∧ s.cmdReg = 0x00#8 ∧ s.idx = 0x0000#16 ∧ s.rxCrc = 0x0000#16 ∧
    s.spanLen = 2#17 ∧ s.span? = some (be16 s.lenReg)
  | .readData =>
    s.LengthLegal ∧ s.idx.toNat + 1 < s.lenReg.toNat ∧ s.SpanHoldsFrame ∧ s.rxCrc = 0x0000#16
  | .waitCrc1 => s.cfgCrcEn = true ∧ s.FrameHeld ∧ s.rxCrc = 0x0000#16
  | .waitCrc2 => s.cfgCrcEn = true ∧ s.FrameHeld ∧ lo s.rxCrc = 0x00#8
  | .waitEnd1 | .waitEnd2 =>
    s.FrameHeld ∧ (s.cfgCrcEn = true → s.span?.map checksum = some s.rxCrc) ∧
    (s.cfgCrcEn = false → s.rxCrc = 0x0000#16)

/-- The invariant holds exactly where its common clauses and the row of the current state do. -/
theorem inv_iff (s : State) : s.Inv ↔ s.Sound ∧ s.TableRow s.dstate := by
  have hlo : s.rxCrc = 0x0000#16 → lo s.rxCrc = 0x00#8 := fun h => h ▸ lo_zero
  cases h : s.dstate <;>
    simp only [State.Inv, State.Sound, State.TableRow, State.FrameHeld, State.HuntRow, State.LengthLoRow,
      State.CmdRow, State.ReadDataRow, State.CrcRow, State.EndRow, h, reduceCtorEq, or_true, or_self,
      or_false, true_imp_iff, false_imp_iff, and_true, true_and, and_assoc, and_iff_right_of_imp hlo]

theorem inv_row {s : State} {d : DState} (h : s.Inv) (hd : s.dstate = d) : s.TableRow d :=
  hd ▸ ((inv_iff s).1 h).2

/-- From READ_DATA on the payload so far is written and the span holds the length, the command and it. -/
theorem spanHoldsFrame_iff (s : State) :
    s.SpanHoldsFrame ↔ ∃ p, s.payload? = some p ∧ s.spanLen.toNat = 3 + s.idx.toNat ∧
      s.span? = some (be16 s.lenReg ++ s.cmdReg :: p) := by
  unfold State.SpanHoldsFrame State.expectedSpan
  cases s.payload? <;> simp

/-! ### What the common clauses need: every write stays within its buffer -/

theorem State.Sound.writeSpan {s : State} {i : Nat} (b : Byte) (hs : s.Sound) (hi : i < s.spanCap) :
    State.Sound { s with span := s.span.write i b } := by
  obtain ⟨hmax, hacc, hpbuf, hpcap, hspan, hscap, hscratch⟩ := hs
  exact ⟨hmax, hacc, hpbuf, hpcap, Memory.wf_write i b hspan, Memory.within_write i b hscap hi,
    hscratch⟩

theorem State.Sound.writePbuf {s : State} {i : Nat} (b : Byte) (hs : s.Sound) (hi : i < s.pbufCap) :
    State.Sound { s with pbuf := s.pbuf.write i b } := by
  obtain ⟨hmax, hacc, hpbuf, hpcap, hrest⟩ := hs
  exact ⟨hmax, hacc, Memory.wf_write i b hpbuf, Memory.within_write i b hpcap hi, hrest⟩

theorem State.Sound.writeScratch {s : State} {f : List Byte} (hs : s.Sound)
    (hf : f.length ≤ s.scratchCap) : State.Sound { s with scratch := s.scratch.writeAll 0 f } := by
  obtain ⟨hmax, hacc, hpbuf, hpcap, hspan, hscap, hscratch, hcap⟩ := hs
  exact ⟨hmax, hacc, hpbuf, hpcap, hspan, hscap, Memory.wf_writeAll 0 f hscratch,
    Memory.within_writeAll 0 f hcap (by rwa [Nat.zero_add])⟩

theorem sound_ite {c : Prop} [Decidable c] {t u : State} (ht : t.Sound) (hu : u.Sound) :
    (if c then t else u).Sound := by
  split <;> assumption

/-- Every rule of the decoder keeps the common clauses: it writes a buffer below its capacity only. -/
theorem ruleOf_sound {d : DState} {b : Byte} {s t : State} (hs : s.Sound) (h : ruleOf d b s = .ok t) :
    t.Sound := by
  cases d with
  | waitHeader1 | waitHeader2 | waitEnd1 =>
    obtain rfl := Except.ok.inj h
    exact sound_ite hs hs
  | waitLengthHi =>
    obtain rfl := Except.ok.inj h
    exact hs.writeSpan b (Nat.succ_pos _)
  | waitCrc1 =>
    obtain rfl := Except.ok.inj h
    exact hs
  | waitLengthLo =>
    obtain ⟨hcap, rfl⟩ := ruleWaitLengthLo_ok h
    have hu := hs.writeSpan b hcap
    exact sound_ite hu hu
  | waitCmd =>
    obtain ⟨hcap, rfl⟩ := ruleWaitCmd_ok h
    exact hs.writeSpan b hcap
  | readData =>
    obtain ⟨hpcap, hscap, rfl⟩ := ruleReadData_ok h
    have hu := (hs.writePbuf b hpcap).writeSpan b hscap
    exact sound_ite hu hu
  | waitCrc2 =>
    obtain ⟨_, -, -, rfl⟩ := ruleWaitCrc2_ok h
    obtain ⟨hmax, -, hbuf⟩ := hs
    exact sound_ite ⟨hmax, rfl, hbuf⟩ ⟨hmax, rfl, hbuf⟩
  | waitEnd2 =>
    rcases ruleWaitEnd2_ok h with ⟨-, p, -, -, rfl⟩ | ⟨-, rfl⟩ <;> exact hs

/-! ### What the rows need: each rule leads from its row to the next one -/

/-- HUNT restores the reset values (R83), which is all that R27 asks of WAIT_HEADER_1. -/
theorem hunt_tableRow (s : State) : s.hunt.TableRow s.hunt.dstate := ⟨rfl, rfl, rfl, rfl, rfl⟩

/-- Where the decoder goes once the payload is complete, the row asks for the frame and a clear `rx_crc`. -/
theorem afterPayload_tableRow {s : State} (hframe : s.FrameHeld) (hrx : s.rxCrc = 0x0000#16) :
    s.TableRow s.afterPayload := by
  unfold State.afterPayload
  cases hen : s.cfgCrcEn with
  | true => exact ⟨hen, hframe, hrx⟩
  | false => exact ⟨hframe, fun h => (nomatch hen.symm.trans h), fun _ => hrx⟩

theorem ruleWaitLengthHi_tableRow {b : Byte} {s t : State} (hs : s.TableRow .waitLengthHi)
    (h : ruleWaitLengthHi b s = .ok t) : t.TableRow t.dstate := by
  obtain ⟨hlen, hcmd, hidx, hrx, -⟩ := hs
  obtain rfl := Except.ok.inj h
  have hspan : (s.span.write 0 b).readRange 1 = some [b] :=
    Memory.readRange_write_end (n := 0) b rfl
  refine ⟨?_, hcmd, hidx, hrx, rfl, ?_⟩
  · simp [hlen]
  · simpa [State.span?] using hspan

theorem ruleWaitLengthLo_tableRow {b : Byte} {s t : State} (hs : s.TableRow .waitLengthLo)
    (h : ruleWaitLengthLo b s = .ok t) : t.TableRow t.dstate := by
  obtain ⟨-, hcmd, hidx, hrx, hlen, hspan⟩ := hs
  obtain ⟨-, rfl⟩ := ruleWaitLengthLo_ok h
  rcases checkLength_cases _ with ⟨hlegal, ht⟩ | ⟨-, ht⟩ <;> rw [ht]
  · refine ⟨hlegal, hcmd, hidx, hrx, ?_, ?_⟩
    · simp [hlen]
    · have := readRange_append b (by simp [hlen]) hspan
      simpa [State.span?, be16] using this
  · exact hunt_tableRow _

theorem ruleWaitCmd_tableRow {b : Byte} {s t : State} (hs : s.TableRow .waitCmd)
    (h : ruleWaitCmd b s = .ok t) : t.TableRow t.dstate := by
  obtain ⟨hlegal, -, -, hrx, hlen, hspan⟩ := hs
  obtain ⟨-, rfl⟩ := ruleWaitCmd_ok h
  have hframe : State.SpanHoldsFrame { s with
      span := s.span.write s.spanLen.toNat b
      spanLen := s.spanLen + 1#17
      cmdReg := b
      idx := 0x0000#16
      dstate := if s.NoPayload then s.afterPayload else .readData } :=
    (spanHoldsFrame_iff _).2 ⟨[], rfl, by simp [hlen], readRange_append b (by simp [hlen]) hspan⟩
  by_cases hone : s.NoPayload
  · simp only [if_pos hone] at hframe ⊢
    exact afterPayload_tableRow ⟨hlegal, hone.symm, hframe⟩ hrx
  · simp only [if_neg hone] at hframe ⊢
    exact ⟨hlegal, lt_of_le_of_ne' hlegal.1 hone, hframe, hrx⟩

theorem ruleReadData_tableRow {b : Byte} {s t : State} (hs : s.TableRow .readData)
    (hd : s.dstate = .readData) (h : ruleReadData b s = .ok t) : t.TableRow t.dstate := by
  obtain ⟨hlegal, hidx, hframe, hrx⟩ := hs
  obtain ⟨p, hp, hlen, hspan⟩ := (spanHoldsFrame_iff s).1 hframe
  obtain ⟨-, -, rfl⟩ := ruleReadData_ok h
  have hmax := s.lenReg.isLt
  have hidx' : (s.idx + 1#16).toNat = s.idx.toNat + 1 := toNat_add_one (by omega)
  have hlen' : (s.spanLen + 1#17).toNat = s.spanLen.toNat + 1 := toNat_add_one (by omega)
  have hcount : (s.spanLen + 1#17).toNat = 3 + (s.idx + 1#16).toNat := by omega
  have hbytes : (s.span.write s.spanLen.toNat b).readRange (s.spanLen + 1#17).toNat =
      some (be16 s.lenReg ++ s.cmdReg :: (p ++ [b])) :=
    readRange_append b (by omega) hspan
  have hframe' : State.SpanHoldsFrame { s with
      pbuf := s.pbuf.write s.idx.toNat b
      idx := s.idx + 1#16
      span := s.span.write s.spanLen.toNat b
      spanLen := s.spanLen + 1#17 } :=
    (spanHoldsFrame_iff _).2 ⟨p ++ [b], readRange_append b (by omega) hp, hcount, hbytes⟩
  rcases checkPayload_cases _ with ⟨hdone, ht⟩ | ⟨hmore, ht⟩ <;> rw [ht]
  · exact afterPayload_tableRow ⟨hlegal, hdone, hframe'⟩ hrx
  · rw [hd]
    refine ⟨hlegal, ?_, hframe', hrx⟩
    simp only [State.PayloadComplete, hidx'] at hmore ⊢
    omega

theorem ruleWaitCrc2_tableRow {b : Byte} {s t : State} (hs : s.TableRow .waitCrc2)
    (h : ruleWaitCrc2 b s = .ok t) : t.TableRow t.dstate := by
  obtain ⟨hen, hframe, -⟩ := hs
  obtain ⟨d, -, hspan, rfl⟩ := ruleWaitCrc2_ok h
  rcases checkCrc_cases (checksum d) _ with ⟨hcrc, ht⟩ | ⟨-, ht⟩ <;> rw [ht]
  · have hsum : s.span?.map checksum = some (setLo s.rxCrc b) := by rw [hspan, Option.map_some, hcrc]
    exact ⟨hframe, fun _ => hsum, fun h => nomatch hen.symm.trans h⟩
  · exact hunt_tableRow _

/-- Every rule of the decoder leads from the row of its state to the row of the state it goes to. -/
theorem ruleOf_tableRow {d : DState} {b : Byte} {s t : State} (hs : s.TableRow d) (hd : s.dstate = d)
    (h : ruleOf d b s = .ok t) : t.TableRow t.dstate := by
  cases d with
  | waitHeader1 =>
    obtain rfl := Except.ok.inj h
    split
    · exact hs
    · rw [hd]; exact hs
  | waitHeader2 | waitEnd1 =>
    obtain rfl := Except.ok.inj h
    split
    · exact hs
    · exact hunt_tableRow s
  | waitLengthHi => exact ruleWaitLengthHi_tableRow hs h
  | waitLengthLo => exact ruleWaitLengthLo_tableRow hs h
  | waitCmd => exact ruleWaitCmd_tableRow hs h
  | readData => exact ruleReadData_tableRow hs hd h
  | waitCrc1 =>
    obtain ⟨hen, hframe, hrx⟩ := hs
    obtain rfl := Except.ok.inj h
    exact ⟨hen, hframe, by simp [hrx]⟩
  | waitCrc2 => exact ruleWaitCrc2_tableRow hs h
  | waitEnd2 =>
    rcases ruleWaitEnd2_ok h with ⟨-, p, -, -, rfl⟩ | ⟨-, rfl⟩ <;> exact hunt_tableRow _

/-! ### Every operation and every step keeps the invariant -/

theorem exec_inv {i : Instr} {s t : State} (hs : s.Inv) (h : exec i s = .next t) : t.Inv := by
  obtain ⟨hsound, hrow⟩ := (inv_iff s).1 hs
  rcases exec_next_cases h with ⟨b, u, -, hu, rfl⟩ | ⟨-, rfl⟩ | ⟨c, p, -, -, rfl⟩ |
    ⟨c, p, f, -, hp, rfl, rfl⟩ | ⟨d, -, rfl⟩
  · exact (inv_iff u).2 ⟨ruleOf_sound hsound hu, ruleOf_tableRow hrow rfl hu⟩
  · exact (inv_iff s.hunt).2 ⟨hsound, hunt_tableRow s⟩
  · exact hs
  · obtain ⟨hmax, (hacc : s.crcAcc = none), hbuf⟩ :=
      hsound.writeScratch (frame_length_le_scratchCap c hp)
    exact (inv_iff _).2 ⟨⟨hmax, by simp [hacc], hbuf⟩, hrow⟩
  · obtain ⟨hmax, -, hbuf⟩ := hsound
    exact (inv_iff _).2 ⟨⟨hmax, rfl, hbuf⟩, hrow⟩

/-- Settles O14: an idle or refused step leaves the context, and every operation keeps the common clauses and
leads from row to row. -/
theorem stepKeepsTableOfR28 : Obligations.StepKeepsTableOfR28 := by
  intro s t hs h
  rcases step_next_cases h with ⟨-, rfl⟩ | ⟨r, rest, -, ⟨i, -, hi⟩ | ⟨e, -, rfl⟩⟩
  · exact hs
  · exact exec_inv (s := { s with requests := rest }) hs hi
  · exact hs

/-! ### Construction meets the invariant, and every run keeps it -/

/-- Settles O11: every field of the reset state is the one that construction with the defaults gives. -/
theorem resetIsDefaultConstruction : Obligations.ResetIsDefaultConstruction :=
  ⟨construct_of_legal (by decide), rfl, rfl, rfl, rfl, rfl⟩

/-- Settles O13: construction refuses an illegal maximum, and the buffers it gives are empty. -/
theorem constructionMeetsInvariant : Obligations.ConstructionMeetsInvariant := by
  intro p t h
  by_cases hp : p.Legal
  · obtain rfl := Option.some.inj ((construct_of_legal hp).symm.trans h)
    have hmax : (BitVec.ofNat 16 p.maxPayload).toNat ≤ Config.maxPayloadLimit :=
      (Nat.mod_le _ _).trans hp
    exact (inv_iff _).2 ⟨⟨hmax, rfl, rfl, rfl, rfl, rfl, rfl, rfl⟩, rfl, rfl, rfl, rfl, rfl⟩
  · exact nomatch (construct_of_illegal hp).symm.trans h

/-- Settles O12: the reset state is a constructed one. -/
theorem resetMeetsInvariant : Obligations.ResetMeetsInvariant :=
  constructionMeetsInvariant _ _ resetIsDefaultConstruction.1

/-- Settles O16: the run begins in the invariant and keeps it, and R27 is its row of the hunting states. -/
theorem huntingStatesHoldResetValues : Obligations.HuntingStatesHoldResetValues := by
  intro p s t rs k hs h hd
  have hinit : State.Inv { s with requests := rs } := constructionMeetsInvariant p s hs
  obtain ⟨-, -, -, hhunt, -⟩ :=
    run_keeps (M := Sys2Proof.core) (P := State.Inv) stepKeepsTableOfR28 hinit h
  exact hhunt hd

/-! ### The indices and the buffers (R96) -/

theorem tableRow_indices {s : State} {d : DState} (h : s.TableRow d) :
    s.idx.toNat ≤ s.cfgMaxPay.toNat ∧ s.spanLen.toNat ≤ s.cfgMaxPay.toNat + 3 := by
  cases d with
  | waitHeader1 | waitHeader2 | waitLengthHi =>
    obtain ⟨-, -, hidx, -, hlen⟩ := h
    simp [hidx, hlen]
  | waitLengthLo | waitCmd =>
    obtain ⟨-, -, hidx, -, hlen, -⟩ := h
    simp [hidx, hlen]
  | readData =>
    obtain ⟨hlegal, hidx, ⟨-, hlen, -⟩, -⟩ := h
    omega
  | waitCrc1 | waitCrc2 =>
    obtain ⟨-, ⟨hlegal, hdone, -, hlen, -⟩, -⟩ := h
    omega
  | waitEnd1 | waitEnd2 =>
    obtain ⟨⟨hlegal, hdone, -, hlen, -⟩, -⟩ := h
    omega

/-- Settles O15, row by row. -/
theorem indicesStayWithinBuffers : Obligations.IndicesStayWithinBuffers :=
  fun _ hs => tableRow_indices (inv_row hs rfl)

/-- In the states in which FEED uses a buffer, the row puts every index it uses inside, on written bytes. -/
theorem inv_reads_within {s : State} (hs : s.Inv) :
    (s.dstate = .waitLengthLo ∨ s.dstate = .waitCmd → s.spanLen.toNat < s.spanCap) ∧
    (s.dstate = .readData → s.idx.toNat < s.pbufCap ∧ s.spanLen.toNat < s.spanCap) ∧
    (s.dstate = .waitCrc2 → s.spanLen.toNat ≤ s.spanCap ∧ s.span.readRange s.spanLen.toNat ≠ none) ∧
    (s.dstate = .waitEnd2 → s.idx.toNat ≤ s.pbufCap ∧ s.pbuf.readRange s.idx.toNat ≠ none) := by
  obtain ⟨hidx, hlen⟩ := indicesStayWithinBuffers s hs
  refine ⟨?_, fun hd => ?_, fun hd => ⟨hlen, ?_⟩, fun hd => ⟨hidx, ?_⟩⟩
  · rintro (hd | hd) <;> obtain ⟨-, -, -, -, hlen, -⟩ := inv_row hs hd <;> simp [hlen, State.spanCap]
  · obtain ⟨hlegal, hidx, ⟨-, hlen, -⟩, -⟩ := inv_row hs hd
    unfold State.pbufCap State.spanCap
    omega
  · obtain ⟨-, ⟨-, -, hframe⟩, -⟩ := inv_row hs hd
    obtain ⟨p, -, -, hspan⟩ := (spanHoldsFrame_iff s).1 hframe
    exact ne_of_eq_of_ne hspan (Option.some_ne_none _)
  · obtain ⟨⟨-, -, hframe⟩, -⟩ := inv_row hs hd
    obtain ⟨p, hp, -⟩ := (spanHoldsFrame_iff s).1 hframe
    exact ne_of_eq_of_ne hp (Option.some_ne_none _)

/-- Settles O32: each clause is the stop of the one buffer operation that its rule begins with, and the table of
R28 rules them out. -/
theorem outsideTheBuffersFeedStops : Obligations.OutsideTheBuffersFeedStops := by
  refine fun b s => ⟨?_, fun hd h => exec_feed_of_error hd ?_, fun hd hidx h => exec_feed_of_error hd ?_,
    fun hd h => exec_feed_of_error hd ?_, fun hd hcap h => exec_feed_of_error hd ?_,
    fun hd hb h => exec_feed_of_error hd ?_, fun hd hb hcap h => exec_feed_of_error hd ?_,
    inv_reads_within⟩
  · rintro (hd | hd) h <;> refine exec_feed_of_error hd ?_
    · exact (ruleWaitLengthLo_eq b s).trans (if_neg (Nat.not_lt.2 h))
    · exact (ruleWaitCmd_eq b s).trans (if_neg (Nat.not_lt.2 h))
  · exact (ruleReadData_eq b s).trans (if_neg (Nat.not_lt.2 h))
  · exact (ruleReadData_eq b s).trans ((if_pos hidx).trans (if_neg (Nat.not_lt.2 h)))
  · rw [ruleOf, ruleWaitCrc2, State.readSpan_of_lt h]
  · rw [ruleOf, ruleWaitCrc2, State.readSpan_of_none hcap h]
  · rw [ruleOf, ruleWaitEnd2, if_pos hb, State.readPayload_of_lt h]
  · rw [ruleOf, ruleWaitEnd2, if_pos hb, State.readPayload_of_none hcap h]

/-! ### What is delivered (R93, R113) -/

/-- Settles O49: the row of WAIT_END_2 says of the received frame what the statement says of the delivered one. -/
theorem onlyValidFramesAreDelivered : Obligations.OnlyValidFramesAreDelivered := by
  intro b c p s t hs h hout
  obtain ⟨hd, hb, rfl, hp⟩ := exec_feed_delivers h hout
  obtain ⟨⟨-, hdone, hframe⟩, hcrc, -⟩ := inv_row hs hd
  obtain ⟨q, hq, -, hspan⟩ := (spanHoldsFrame_iff s).1 hframe
  obtain rfl : p = q := Option.some.inj (hp.symm.trans hq)
  have hlen : p.length = s.idx.toNat := Memory.readRange_length hp
  refine ⟨hd, hb, rfl, ?_, ?_, fun hen => ?_⟩
  · rw [hlen, hdone]
  · rw [hlen]
    exact (indicesStayWithinBuffers s hs).1
  · have hsum := hcrc hen
    rw [hspan, Option.map_some] at hsum
    exact (Option.some.inj hsum).symm

end Sys2Proof.Machine
end

section
/-!
SUPPORT. Stale bytes: two states that differ in nothing else are one state with two sets of buffers, and every
rule, operation and step commutes with the exchange of the buffers (R29).
-/

namespace Sys2Proof.Machine

/-- A state with other buffers in the place of its own. -/
def State.withBuffers (s : State) (pbuf span scratch : Memory) : State :=
  { s with pbuf := pbuf, span := span, scratch := scratch }

/-- Two buffers hold the same bytes below an index. -/
def AgreeBelow (n : Nat) (m m' : Memory) : Prop := ∀ i, i < n → m.read i = m'.read i

theorem AgreeBelow.zero (m m' : Memory) : AgreeBelow 0 m m' := fun _ h => absurd h (Nat.not_lt_zero _)

/-- The same byte written at an index makes two buffers agree there too, whatever they held. -/
theorem AgreeBelow.write {n k : Nat} {m m' : Memory} (b : Byte) (h : AgreeBelow n m m')
    (hk : k ≤ n + 1) : AgreeBelow k (m.write n b) (m'.write n b) := by
  intro i hi
  rw [Memory.read_write, Memory.read_write]
  split
  · rfl
  · exact h i (by omega)

/-- The byte appended where a counter points; the counter may wrap, which only shortens the range. -/
theorem AgreeBelow.append {w : Nat} {n : BitVec w} {m m' : Memory} (b : Byte)
    (h : AgreeBelow n.toNat m m') :
    AgreeBelow (n + 1#w).toNat (m.write n.toNat b) (m'.write n.toNat b) := by
  refine h.write b ?_
  rw [BitVec.toNat_add, BitVec.toNat_ofNat, Nat.add_mod_mod]
  exact Nat.mod_le _ _

theorem sameButStale_withBuffers {s : State} {pbuf span : Memory} (scratch : Memory)
    (hpbuf : AgreeBelow s.idx.toNat s.pbuf pbuf) (hspan : AgreeBelow s.spanLen.toNat s.span span) :
    SameButStale s (s.withBuffers pbuf span scratch) :=
  ⟨⟨rfl, rfl, rfl, rfl⟩, ⟨rfl, rfl, rfl, rfl, rfl, rfl⟩, rfl, rfl, rfl, hpbuf, hspan⟩

/-- States that differ in stale bytes only are one state with two sets of buffers. -/
theorem sameButStale_iff {s u : State} :
    SameButStale s u ↔ ∃ pbuf span scratch, u = s.withBuffers pbuf span scratch ∧
      AgreeBelow s.idx.toNat s.pbuf pbuf ∧ AgreeBelow s.spanLen.toNat s.span span := by
  constructor
  · rintro ⟨⟨hh, ht, hm, hc⟩, ⟨hd, hlen, hcmd, hidx, hrx, hsl⟩, hacc, hreq, hout, hp, hs⟩
    refine ⟨u.pbuf, u.span, u.scratch, ?_, hp, hs⟩
    rw [State.withBuffers, hh, ht, hm, hc, hd, hlen, hcmd, hidx, hrx, hsl, hacc, hreq, hout]
  · rintro ⟨pbuf, span, scratch, rfl, hp, hs⟩
    exact sameButStale_withBuffers scratch hp hs

theorem SameButStale.ite {c : Prop} [Decidable c] {s s' u u' : State} (h : SameButStale s u)
    (h' : SameButStale s' u') : SameButStale (if c then s else s') (if c then u else u') := by
  split <;> assumption

/-- HUNT makes every byte stale (R83). -/
theorem sameButStale_hunt (s : State) (pbuf span scratch : Memory) :
    SameButStale s.hunt (s.withBuffers pbuf span scratch).hunt :=
  sameButStale_withBuffers (s := s.hunt) scratch (AgreeBelow.zero _ _) (AgreeBelow.zero _ _)

theorem SameButStale.respond {s u : State} (h : SameButStale s u) (r : Response) :
    SameButStale (s.respond r) (u.respond r) := by
  obtain ⟨hcfg, hreg, hacc, hreq, hout, hbytes⟩ := h
  exact ⟨hcfg, hreg, hacc, hreq, by simp [hout], hbytes⟩

/-- Two results of a rule become outcomes that agree: related states, or one fault. -/
def ResultsAgree (r r' : Except Fault State) : Prop :=
  OutcomesAgree SameButStale (finishFeed r) (finishFeed r')

theorem resultsAgree_ok {s u : State} (h : SameButStale s u) : ResultsAgree (.ok s) (.ok u) :=
  h.respond .ack

theorem resultsAgree_error (f : Fault) : ResultsAgree (.error f) (.error f) := rfl

theorem ResultsAgree.ite {c : Prop} [Decidable c] {r r' q q' : Except Fault State}
    (h : ResultsAgree r q) (h' : ResultsAgree r' q') :
    ResultsAgree (if c then r else r') (if c then q else q') := by
  split <;> assumption

/-! ### Rules -/

/-- The span that WAIT_CRC_2 reads holds no stale byte. -/
theorem readSpan_withBuffers {s : State} {span : Memory} (pbuf scratch : Memory)
    (h : AgreeBelow s.spanLen.toNat s.span span) :
    (s.withBuffers pbuf span scratch).readSpan = s.readSpan := by
  have hspan : (s.withBuffers pbuf span scratch).span.readRange
      (s.withBuffers pbuf span scratch).spanLen.toNat = s.span.readRange s.spanLen.toNat :=
    (Memory.readRange_congr h).symm
  unfold State.readSpan
  rw [hspan]
  rfl

/-- The payload that WAIT_END_2 delivers holds no stale byte. -/
theorem readPayload_withBuffers {s : State} {pbuf : Memory} (span scratch : Memory)
    (h : AgreeBelow s.idx.toNat s.pbuf pbuf) :
    (s.withBuffers pbuf span scratch).readPayload = s.readPayload := by
  have hpbuf : (s.withBuffers pbuf span scratch).pbuf.readRange
      (s.withBuffers pbuf span scratch).idx.toNat = s.pbuf.readRange s.idx.toNat :=
    (Memory.readRange_congr h).symm
  unfold State.readPayload
  rw [hpbuf]
  rfl

/-- Every rule of the decoder commutes with an exchange of stale bytes. -/
theorem ruleOf_agree (d : DState) (b : Byte) {s u : State} (h : SameButStale s u) :
    ResultsAgree (ruleOf d b s) (ruleOf d b u) := by
  obtain ⟨pbuf, span, scratch, rfl, hp, hs⟩ := sameButStale_iff.1 h
  cases d with
  | waitHeader1 => exact resultsAgree_ok (.ite (sameButStale_withBuffers scratch hp hs) h)
  | waitHeader2 | waitEnd1 =>
    exact resultsAgree_ok (.ite (sameButStale_withBuffers scratch hp hs) (sameButStale_hunt s _ _ _))
  | waitLengthHi =>
    have hstart : AgreeBelow 1 (s.span.write 0 b) (span.write 0 b) :=
      (AgreeBelow.zero s.span span).write b (Nat.le_refl 1)
    exact resultsAgree_ok (sameButStale_withBuffers scratch hp hstart)
  | waitLengthLo =>
    rw [ruleOf, ruleWaitLengthLo_eq, ruleWaitLengthLo_eq]
    refine .ite (resultsAgree_ok (.ite ?_ (sameButStale_hunt _ _ _ _))) (resultsAgree_error _)
    exact sameButStale_withBuffers scratch hp (hs.append b)
  | waitCmd =>
    rw [ruleOf, ruleWaitCmd_eq, ruleWaitCmd_eq]
    refine .ite (resultsAgree_ok ?_) (resultsAgree_error _)
    exact sameButStale_withBuffers scratch (AgreeBelow.zero _ _) (hs.append b)
  | readData =>
    rw [ruleOf, ruleReadData_eq, ruleReadData_eq]
    refine .ite (.ite (resultsAgree_ok (.ite ?_ ?_)) (resultsAgree_error _)) (resultsAgree_error _)
    all_goals exact sameButStale_withBuffers scratch (hp.append b) (hs.append b)
  | waitCrc1 => exact resultsAgree_ok (sameButStale_withBuffers scratch hp hs)
  | waitCrc2 =>
    rw [ruleOf, ruleWaitCrc2, ruleWaitCrc2, readSpan_withBuffers pbuf scratch hs]
    cases s.readSpan with
    | error f => exact resultsAgree_error f
    | ok data =>
      simp only [State.runChecksum_eq]
      exact resultsAgree_ok (.ite (sameButStale_withBuffers scratch hp hs) (sameButStale_hunt _ _ _ _))
  | waitEnd2 =>
    rw [ruleOf, ruleWaitEnd2, ruleWaitEnd2, readPayload_withBuffers span scratch hp]
    refine .ite ?_ (resultsAgree_ok (sameButStale_hunt s _ _ _))
    cases s.readPayload with
    | error f => exact resultsAgree_error f
    | ok p => exact resultsAgree_ok (sameButStale_hunt (s.emit (.packet s.cmdReg p)) _ _ _)

/-! ### Operations and steps -/

/-- Every operation commutes with an exchange of stale bytes: beside the rules, none reads a buffer. -/
theorem exec_agree (i : Instr) {s u : State} (h : SameButStale s u) :
    OutcomesAgree SameButStale (exec i s) (exec i u) := by
  rw [← exec_requestForm i s, ← exec_requestForm i u]
  obtain ⟨pbuf, span, scratch, rfl, hp, hs⟩ := sameButStale_iff.1 h
  rcases requestForm_cases i with ⟨b, hi⟩ | hi | ⟨c, p, hi⟩ | ⟨d, hi⟩ <;> rw [hi]
  · exact ruleOf_agree s.dstate b h
  · exact (sameButStale_hunt s pbuf span scratch).respond .ack
  · by_cases hlong : s.TooLong p
    · have hlong' : (s.withBuffers pbuf span scratch).TooLong p := hlong
      rw [exec, exec, execEncode_of_tooLong hlong, execEncode_of_tooLong hlong']
      exact h.respond .errPayloadTooLong
    · have hlong' : ¬ (s.withBuffers pbuf span scratch).TooLong p := hlong
      rw [exec, exec, execEncode_of_fits hlong, execEncode_of_fits hlong']
      refine SameButStale.respond ?_ _
      exact sameButStale_withBuffers _ hp hs
  · rw [exec, exec, execChecksum_eq, execChecksum_eq]
    refine SameButStale.respond ?_ _
    exact sameButStale_withBuffers scratch hp hs

theorem SameButStale.withRequests {s u : State} (h : SameButStale s u) (rest : List Request) :
    SameButStale { s with requests := rest } { u with requests := rest } := by
  obtain ⟨pbuf, span, scratch, rfl, hp, hs⟩ := sameButStale_iff.1 h
  exact sameButStale_withBuffers scratch hp hs

/-- Settles O57: both states take the same request, and refuse it or carry out the same operation. -/
theorem staleBytesAreUnobservable : Obligations.StaleBytesAreUnobservable := by
  intro s u h
  have ⟨_, _, _, hreq, _⟩ := h
  cases hr : s.requests with
  | nil =>
    rw [step_of_requests_nil hr, step_of_requests_nil (hreq ▸ hr)]
    exact h
  | cons r rest =>
    have hu : u.requests = r :: rest := hreq ▸ hr
    cases hd : decode r with
    | error e =>
      rw [step_of_decode_error hr hd, step_of_decode_error hu hd]
      exact (h.withRequests rest).respond _
    | ok i =>
      rw [step_of_decode_ok hr hd, step_of_decode_ok hu hd]
      exact exec_agree i (h.withRequests rest)

end Sys2Proof.Machine
end

section
/-!
SUPPORT. What an operation answers and what it leaves unchanged, and the statements of 20_memory.md about ENCODE,
CHECKSUM and the scratch buffer.
-/

namespace Sys2Proof.Machine

/-! ### ENCODE and CHECKSUM: the response and the decoder context (R43, R80) -/

theorem SameContext.refl (s : State) : SameContext s s :=
  ⟨⟨rfl, rfl, rfl, rfl, rfl, rfl⟩, fun _ => rfl, fun _ => rfl⟩

/-- ENCODE's response is a function of its operands and the configuration registers. -/
def State.encodeResponse (s : State) (c : Byte) (p : List Byte) : Response :=
  if s.TooLong p then .errPayloadTooLong
  else .txFrame (frame s.cfgHeader s.cfgTrailer s.cfgCrcEn c p)

theorem encodeResponse_congr {s u : State} (h : SameConfig s u) (c : Byte) (p : List Byte) :
    s.encodeResponse c p = u.encodeResponse c p := by
  obtain ⟨hheader, htrailer, hmax, hcrc⟩ := h
  simp only [State.encodeResponse, State.TooLong, hheader, htrailer, hmax, hcrc]

theorem exec_encode_response (c : Byte) (p : List Byte) (s : State) :
    ∃ t, exec (.encode c p) s = .next t ∧
      t.outputs = s.outputs ++ [Output.response (s.encodeResponse c p)] ∧ SameContext s t := by
  by_cases h : s.TooLong p
  · rw [State.encodeResponse, if_pos h]
    exact ⟨_, execEncode_of_tooLong h, rfl, SameContext.refl s⟩
  · rw [State.encodeResponse, if_neg h]
    exact ⟨_, execEncode_of_fits h, rfl, SameContext.refl s⟩

theorem exec_checksum_response (d : List Byte) (s : State) :
    ∃ t, exec (.checksum d) s = .next t ∧
      t.outputs = s.outputs ++ [Output.response (.crc (checksum d))] ∧ SameContext s t :=
  ⟨_, execChecksum_eq d s, rfl, SameContext.refl s⟩

/-- Settles O44: ENCODE's response depends on the configuration alone, CHECKSUM's on its data alone. -/
theorem encodeAndChecksumIgnoreTheContext : Obligations.EncodeAndChecksumIgnoreTheContext := by
  rintro i s u (⟨c, p, rfl⟩ | ⟨d, rfl⟩) hcfg
  · obtain ⟨t, ht, htout, htctx⟩ := exec_encode_response c p s
    obtain ⟨v, hv, hvout, hvctx⟩ := exec_encode_response c p u
    rw [← encodeResponse_congr hcfg] at hvout
    exact ⟨_, t, v, ht, hv, htout, hvout, htctx, hvctx⟩
  · obtain ⟨t, ht, htout, htctx⟩ := exec_checksum_response d s
    obtain ⟨v, hv, hvout, hvctx⟩ := exec_checksum_response d u
    exact ⟨_, t, v, ht, hv, htout, hvout, htctx, hvctx⟩

/-! ### The pending requests and the scratch buffer (R39, R43, R105) -/

theorem eq_encode_of_requestForm {i : Instr} {c : Byte} {p : List Byte}
    (h : i.requestForm = .encode c p) : i = .encode c p := by
  cases i with
  | encode => exact h
  | _ => cases h

/-- A rule of the decoder, the delivery of R93 included, leaves the pending requests and the scratch buffer. -/
theorem ruleOf_requests_scratch {d : DState} {b : Byte} {s t : State} (h : ruleOf d b s = .ok t) :
    t.requests = s.requests ∧ t.scratch = s.scratch := by
  rcases ruleOf_ok h with hs | ⟨-, -, p, -, rfl⟩
  · obtain ⟨-, hscratch, hreq, -⟩ := outside_eq_iff.1 hs
    exact ⟨hreq.symm, hscratch.symm⟩
  · exact ⟨rfl, rfl⟩

/-- Settles O46: of the cases of an operation only the ENCODE of a payload that fits writes scratch bytes, and
none takes or adds a request. -/
theorem onlyEncodeWritesScratch : Obligations.OnlyEncodeWritesScratch := by
  intro i s t h
  rcases exec_next_cases h with ⟨b, u, -, hu, rfl⟩ | ⟨-, rfl⟩ | ⟨c, p, -, -, rfl⟩ |
    ⟨c, p, f, hi, -, -, rfl⟩ | ⟨d, -, rfl⟩
  · obtain ⟨hreq, hscratch⟩ := ruleOf_requests_scratch hu
    exact ⟨hreq, fun _ a => congrArg (Memory.read · a) hscratch⟩
  · exact ⟨rfl, fun _ _ => rfl⟩
  · exact ⟨rfl, fun _ _ => rfl⟩
  · exact ⟨rfl, fun hne => absurd (eq_encode_of_requestForm hi) (hne c p)⟩
  · exact ⟨rfl, fun _ _ => rfl⟩

end Sys2Proof.Machine
end

section
/-!
SUPPORT. The request decoder: what each selector requires, and that decoding and encoding are inverse to each
other, with the statements of 30_encoding.md part 3 that follow (R57 to R65).
-/

namespace Sys2Proof

/-! ### Byte counts (R58) -/

theorem countValue_two (n1 n0 : Byte) : countValue [n1, n0] = n1.toNat * 256 + n0.toNat := by
  simp [countValue]

theorem countValue_four (n3 n2 n1 n0 : Byte) :
    countValue [n3, n2, n1, n0] =
      n3.toNat * 16777216 + n2.toNat * 65536 + n1.toNat * 256 + n0.toNat := by
  simp only [countValue, List.foldl_cons, List.foldl_nil]
  omega

theorem countValue_two_le (n1 n0 : Byte) : countValue [n1, n0] ≤ 65535 := by
  rw [countValue_two]
  omega

theorem countValue_four_le (n3 n2 n1 n0 : Byte) : countValue [n3, n2, n1, n0] ≤ 4294967295 := by
  rw [countValue_four]
  omega

/-! ### The selector (R58, R64) -/

theorem decode_reset (rest : List Byte) : decode (opcReset :: rest) = decodeReset rest := rfl
theorem decode_feed (rest : List Byte) : decode (opcFeed :: rest) = decodeFeed rest := rfl
theorem decode_encode (rest : List Byte) : decode (opcEncode :: rest) = decodeEncode rest := rfl
theorem decode_checksum (rest : List Byte) : decode (opcChecksum :: rest) = decodeChecksum rest := rfl

theorem selector_cases (opc : Byte) :
    opc = opcReset ∨ opc = opcFeed ∨ opc = opcEncode ∨ opc = opcChecksum ∨ 4 ≤ opc.toNat := by
  simp only [opcReset, opcFeed, opcEncode, opcChecksum]
  bv_omega

theorem decode_of_reserved {opc : Byte} (rest : List Byte) (h : 4 ≤ opc.toNat) :
    decode (opc :: rest) = .error (.reservedSelector opc) := by
  have hne : ∀ {sel : Byte}, sel.toNat < 4 → opc ≠ sel := fun hsel heq =>
    Nat.not_le.2 hsel (heq ▸ h)
  rw [decode, if_neg (hne (by decide)), if_neg (hne (by decide)), if_neg (hne (by decide)),
    if_neg (hne (by decide))]

/-- A selector below 4 is not reserved: what it rejects is malformed (R65). -/
theorem decode_error_of_lt {opc : Byte} {rest : List Byte} {e : DecodeError} (hopc : opc.toNat < 4)
    (h : decode (opc :: rest) = .error e) : e = .malformed opc := by
  rcases selector_cases opc with rfl | rfl | rfl | rfl | hres
  · rw [decode_reset, decodeReset.eq_def] at h
    split at h <;> cases h
    rfl
  · rw [decode_feed, decodeFeed.eq_def] at h
    split at h <;> cases h
    rfl
  · rw [decode_encode, decodeEncode.eq_def] at h
    split at h
    · split at h <;> cases h
      rfl
    · cases h; rfl
  · rw [decode_checksum, decodeChecksum.eq_def] at h
    split at h
    · split at h <;> cases h
      rfl
    · cases h; rfl
  · omega

/-! ### What each selector requires (R59 to R62) -/

theorem decodeReset_ok_iff {rest : List Byte} {i : Instr} :
    decodeReset rest = .ok i ↔ rest = [] ∧ i = .reset := by
  cases rest <;> simp [decodeReset, eq_comm]

theorem decodeFeed_ok_iff {rest : List Byte} {i : Instr} :
    decodeFeed rest = .ok i ↔ ∃ b, rest = [b] ∧ i = .feed b := by
  rcases rest with _ | ⟨b, _ | ⟨_, _⟩⟩ <;> simp [decodeFeed, eq_comm]

theorem decodeEncode_ok_iff {rest : List Byte} {i : Instr} :
    decodeEncode rest = .ok i ↔
      ∃ c n1 n0 p, rest = c :: n1 :: n0 :: p ∧ p.length = countValue [n1, n0] ∧ i = .encode c p := by
  constructor
  · intro h
    rw [decodeEncode.eq_def] at h
    split at h
    · split at h <;> cases h
      exact ⟨_, _, _, _, rfl, ‹_›, rfl⟩
    · cases h
  · rintro ⟨c, n1, n0, p, rfl, hlen, rfl⟩
    exact if_pos hlen

theorem decodeChecksum_ok_iff {rest : List Byte} {i : Instr} :
    decodeChecksum rest = .ok i ↔
      ∃ n3 n2 n1 n0 d, rest = n3 :: n2 :: n1 :: n0 :: d ∧ d.length = countValue [n3, n2, n1, n0] ∧
        i = .checksum d := by
  constructor
  · intro h
    rw [decodeChecksum.eq_def] at h
    split at h
    · split at h <;> cases h
      exact ⟨_, _, _, _, _, rfl, ‹_›, rfl⟩
    · cases h
  · rintro ⟨n3, n2, n1, n0, d, rfl, hlen, rfl⟩
    exact if_pos hlen

/-! ### Decoding and encoding are inverse (R59 to R62) -/

theorem decode_encode_of_wellFormed {i : Instr} (h : i.wellFormed = true) :
    decode (encode i) = .ok i.requestForm := by
  cases i with
  | encode c p =>
    have hcount := countValue_count16 p.length (of_decide_eq_true h)
    exact decodeEncode_ok_iff.2 ⟨c, _, _, p, rfl, hcount.symm, rfl⟩
  | checksum d =>
    have hcount := countValue_count32 d.length (of_decide_eq_true h)
    exact decodeChecksum_ok_iff.2 ⟨_, _, _, _, d, rfl, hcount.symm, rfl⟩
  | _ => rfl

/-- What a request decodes to is one of the four operations, well formed, and encoded by its bytes. -/
theorem decode_ok {r : Request} {i : Instr} (h : decode r = .ok i) :
    i.wellFormed = true ∧ i.requestForm = i ∧ encode i = r := by
  rcases r with _ | ⟨opc, rest⟩
  · cases h
  rcases selector_cases opc with rfl | rfl | rfl | rfl | hres
  · obtain ⟨rfl, rfl⟩ := decodeReset_ok_iff.1 h
    exact ⟨rfl, rfl, rfl⟩
  · obtain ⟨b, rfl, rfl⟩ := decodeFeed_ok_iff.1 h
    exact ⟨rfl, rfl, rfl⟩
  · obtain ⟨c, n1, n0, p, rfl, hlen, rfl⟩ := decodeEncode_ok_iff.1 h
    refine ⟨decide_eq_true (hlen ▸ countValue_two_le n1 n0), rfl, ?_⟩
    rw [encode, hlen, count16_countValue]
    rfl
  · obtain ⟨n3, n2, n1, n0, d, rfl, hlen, rfl⟩ := decodeChecksum_ok_iff.1 h
    refine ⟨decide_eq_true (hlen ▸ countValue_four_le n3 n2 n1 n0), rfl, ?_⟩
    rw [encode, hlen, count32_countValue]
    rfl
  · exact nomatch (decode_of_reserved rest hres).symm.trans h

end Sys2Proof

namespace Sys2Proof.Machine

/-- Settles O5: a count that fits its field reads back, and every other operand is written out. -/
theorem decodeOfEncode : Obligations.DecodeOfEncode := by
  refine ⟨fun i h => decode_encode_of_wellFormed h, rfl, fun _ => rfl, fun _ _ => rfl, fun _ => rfl,
    fun d b => ?_⟩
  cases d <;> rfl

/-- Settles O6, selector by selector: a count field holds nothing but the length of what follows it. -/
theorem encodeOfDecode : Obligations.EncodeOfDecode := fun _ _ h => decode_ok h

/-! ### Requests that are none (R64, R65) -/

/-- Settles O3: the selectors below 4 reject as malformed only. -/
theorem reservedSelectorIsRefused : Obligations.ReservedSelectorIsRefused := by
  refine ⟨fun opc rest => ⟨fun h => ?_, decode_of_reserved rest⟩, fun s opc rest more hopc hr => ?_⟩
  · by_contra hopc
    exact nomatch decode_error_of_lt (Nat.not_le.1 hopc) h
  · exact step_of_decode_error hr (decode_of_reserved rest hopc)

/-- Settles O4: what the four selectors require, and a step on a request that does not decode. -/
theorem malformedRequestIsRefused : Obligations.MalformedRequestIsRefused := by
  refine ⟨fun rest => ?_, fun rest => ?_, fun rest => ?_, fun rest => ?_, fun s r more hr hd => ?_⟩
  · refine (exists_congr fun i => decodeReset_ok_iff).trans ?_
    simp
  · refine (exists_congr fun i => decodeFeed_ok_iff).trans ?_
    simp [List.length_eq_one_iff]
  · refine (exists_congr fun i => decodeEncode_ok_iff).trans ?_
    constructor
    · rintro ⟨-, c, n1, n0, p, hrest, hlen, -⟩
      exact ⟨c, n1, n0, p, hrest, hlen.trans (countValue_two n1 n0)⟩
    · rintro ⟨c, n1, n0, p, hrest, hlen⟩
      exact ⟨_, c, n1, n0, p, hrest, hlen.trans (countValue_two n1 n0).symm, rfl⟩
  · refine (exists_congr fun i => decodeChecksum_ok_iff).trans ?_
    constructor
    · rintro ⟨-, n3, n2, n1, n0, d, hrest, hlen, -⟩
      exact ⟨n3, n2, n1, n0, d, hrest, hlen.trans (countValue_four n3 n2 n1 n0)⟩
    · rintro ⟨n3, n2, n1, n0, d, hrest, hlen⟩
      exact ⟨_, n3, n2, n1, n0, d, hrest, hlen.trans (countValue_four n3 n2 n1 n0).symm, rfl⟩
  · cases he : decode r with
    | ok i => exact absurd he (hd i)
    | error e => exact step_of_decode_error hr he

/-- Settles O7: the decoder runs on each of the five requests. -/
theorem sampleRequestsDecode : Obligations.SampleRequestsDecode := by
  unfold Obligations.SampleRequestsDecode
  decide

end Sys2Proof.Machine
end

section
/-!
SUPPORT. What goes out: state codes, byte forms, the frames of ENCODE and the requests of the
pseudo-instructions, with the statements of 30_encoding.md about them (R47, R48, R57, R63, R67).
-/

namespace Sys2Proof.Machine

/-! ### Byte forms (R57, R63) -/

theorem ofCode_code (d : DState) : DState.ofCode d.code = some d := by
  cases d <;> rfl

/-- Settles O8: the ten codes index the list of the states in table order. -/
theorem decoderStateCodes : Obligations.DecoderStateCodes :=
  ⟨rfl, ofCode_code, fun _ hc => List.getElem?_eq_none hc⟩

/-- Settles O9: a count that fits its field is the value of the bytes it is written as. -/
theorem responseByteForms : Obligations.ResponseByteForms := by
  refine ⟨rfl, fun f hf => ⟨_, _, _, _, rfl, ?_⟩, rfl, fun _ => rfl, rfl,
    fun c p hp => ⟨_, _, rfl, ?_⟩⟩
  · rw [← countValue_four]
    exact (countValue_count32 f.length (by omega)).symm
  · rw [← countValue_two]
    exact (countValue_count16 p.length hp).symm

/-! ### The frames of ENCODE (R47, R48, R81) -/

/-- Settles O41: the parts of a frame beside the payload have 9 or 7 bytes, and the capacity allows for 9. -/
theorem frameLengthIsPayloadPlusOverhead : Obligations.FrameLengthIsPayloadPlusOverhead :=
  ⟨fun c p s => frame_length s.cfgHeader s.cfgTrailer s.cfgCrcEn c p,
    fun c _ _ h => frame_length_le_scratchCap c (Nat.not_lt.2 h)⟩

/-- ENCODE answers with a frame exactly where the payload fits. -/
theorem encodeResponse_eq_txFrame_iff {s : State} {c : Byte} {p f : List Byte} :
    s.encodeResponse c p = .txFrame f ↔
      ¬ s.TooLong p ∧ f = frame s.cfgHeader s.cfgTrailer s.cfgCrcEn c p := by
  unfold State.encodeResponse
  split <;> simp [*, eq_comm]

/-- Bytes 2 and 3 of a frame are its length field (R46). -/
theorem frame_getElem?_length (header trailer : Word) (crcEn : Bool) (c : Byte) (p : List Byte) :
    (frame header trailer crcEn c p)[2]? = some (hi (lengthField p)) ∧
    (frame header trailer crcEn c p)[3]? = some (lo (lengthField p)) := ⟨rfl, rfl⟩

/-- Settles O42: what ENCODE answers with is the frame of a payload that fits, so the 16-bit field holds its
length. -/
theorem encodedFrameHasLegalLength : Obligations.EncodedFrameHasLegalLength := by
  intro c p f s t hmax h hout
  obtain ⟨u, hu, huout, -⟩ := exec_encode_response c p s
  obtain rfl : u = t := Host.Outcome.next.inj (hu.symm.trans h)
  have hresp : s.encodeResponse c p = .txFrame f := by simpa [huout] using hout
  obtain ⟨hfits, rfl⟩ := encodeResponse_eq_txFrame_iff.1 hresp
  obtain ⟨h2, h3⟩ := frame_getElem?_length s.cfgHeader s.cfgTrailer s.cfgCrcEn c p
  have hlen : (join (hi (lengthField p)) (lo (lengthField p))).toNat = 1 + p.length := by
    rw [join_hi_lo, lengthField_toNat p (by omega)]
  exact ⟨_, _, h2, h3, hlen, by omega⟩

/-! ### The pseudo-instructions (R67) -/

theorem lastFrame_of_last {before later : List Response} {f : List Byte}
    (h : ∀ g, Response.txFrame g ∉ later) :
    lastFrame (before ++ Response.txFrame f :: later) = some f := by
  rw [lastFrame_append, lastFrame, (lastFrame_eq_none_iff later).2 h]
  rfl

theorem feedsTx_issue (s : State) :
    Line.feedsTx.issue s = some (s.issue (((lastFrame s.responses).getD []).map feedRequest)) := rfl

/-- Issuing nothing changes nothing. -/
theorem State.issue_nil (s : State) : s.issue [] = s := by
  simp [State.issue]

/-- Settles O60: `FEEDS` and `.byte` issue what they list, and `FEEDS @tx` the frame that no later response
hides. -/
theorem pseudoInstructionsExpand : Obligations.PseudoInstructionsExpand := by
  refine ⟨fun _ _ => rfl, fun f s before later hs hlater => ?_, fun s hs => ?_, fun _ _ => rfl⟩
  · have hlast : lastFrame s.responses = some f := hs ▸ lastFrame_of_last hlater
    refine ⟨hlast, ?_⟩
    rw [feedsTx_issue, hlast]
    rfl
  · have hlast : lastFrame s.responses = none := (lastFrame_eq_none_iff _).2 hs
    refine ⟨hlast, ?_⟩
    rw [feedsTx_issue, hlast]
    exact congrArg some s.issue_nil

end Sys2Proof.Machine
end

section
/-!
SUPPORT. The checksum engine (40_checksum.md). Its rounds are exact arithmetic on naturals, and on an accumulator
whose high bits are clear they only shift; so the two bytes of a checksum, fed back, cancel it.
-/

namespace Sys2Proof.Machine

/-! ### Exact arithmetic (R69) -/

/-- One round of R69 on natural numbers below 65536. -/
def crcRoundNat (a : Nat) : Nat := if 32768 ≤ a then (a * 2 % 65536) ^^^ 0x1021 else a * 2

theorem getLsbD_fifteen (acc : Word) : acc.getLsbD 15 = decide (32768 ≤ acc.toNat) :=
  BitVec.msb_eq_decide acc

theorem crcRound_eq_ite (acc : Word) :
    crcRound acc = if 32768 ≤ acc.toNat then (acc <<< 1) ^^^ crcPoly else acc <<< 1 := by
  simp only [crcRound, getLsbD_fifteen, decide_eq_true_eq]

theorem shiftLeft_one_toNat (acc : Word) : (acc <<< 1).toNat = acc.toNat * 2 % 65536 := by
  rw [BitVec.toNat_shiftLeft, Nat.shiftLeft_eq]

theorem crcRound_toNat (acc : Word) : (crcRound acc).toNat = crcRoundNat acc.toNat := by
  rw [crcRound_eq_ite, crcRoundNat]
  split
  · rw [BitVec.toNat_xor, shiftLeft_one_toNat]
    rfl
  · rw [shiftLeft_one_toNat]
    omega

theorem crcRounds_toNat (n : Nat) (acc : Word) :
    (crcRounds n acc).toNat = crcRoundNat^[n] acc.toNat := by
  induction n generalizing acc with
  | zero => rfl
  | succ n ih => rw [crcRounds, ih, crcRound_toNat, Function.iterate_succ_apply]

/-- A byte moved into bits [15:8] loses nothing. -/
theorem byte_shiftLeft_toNat (b : Byte) : (b.setWidth 16 <<< 8).toNat = b.toNat * 256 := by
  have := b.isLt
  rw [BitVec.toNat_shiftLeft, BitVec.toNat_setWidth, Nat.shiftLeft_eq]
  omega

/-- Settles O34: each round is its arithmetic on naturals, and the byte enters the high byte whole. -/
theorem crcStepIsEightRounds : Obligations.CrcStepIsEightRounds := by
  intro acc b
  rw [crcStep, crcRounds_toNat, BitVec.toNat_xor, byte_shiftLeft_toNat]
  rfl

/-! ### The checksum of a sequence and its checksum (R74) -/

/-- With bit 15 clear a round only shifts (R69). -/
theorem crcRound_of_lt {acc : Word} (h : acc.toNat < 32768) : crcRound acc = acc <<< 1 :=
  (crcRound_eq_ite acc).trans (if_neg (Nat.not_le.2 h))

/-- While no set bit reaches bit 15, the rounds only shift. -/
theorem crcRounds_of_lt {n : Nat} {acc : Word} (h : acc.toNat * 2 ^ n < 65536) :
    crcRounds n acc = acc <<< n := by
  induction n generalizing acc with
  | zero => simp [crcRounds]
  | succ n ih =>
    have hpow : 0 < 2 ^ n := Nat.two_pow_pos n
    have hdouble : acc.toNat * 2 * 2 ^ n < 65536 := by rwa [Nat.pow_succ', ← Nat.mul_assoc] at h
    have hacc : acc.toNat * 2 < 65536 := (Nat.le_mul_of_pos_right _ hpow).trans_lt hdouble
    have hshift : (acc <<< 1).toNat = acc.toNat * 2 := by
      rw [shiftLeft_one_toNat, Nat.mod_eq_of_lt hacc]
    rw [crcRounds, crcRound_of_lt (by omega), ih (hshift ▸ hdouble), ← BitVec.shiftLeft_add,
      Nat.add_comm]

theorem xor_hi_shiftLeft (v : Word) : v ^^^ ((hi v).setWidth 16 <<< 8) = (lo v).setWidth 16 := by
  apply BitVec.eq_of_getLsbD_eq
  intro i h16
  by_cases h8 : i < 8
  · simp [lo, h8, h16]
  · have hback : 8 + (i - 8) = i := by omega
    have hbyte : i - 8 < 8 := by omega
    simp [hi, lo, h8, h16, hback, hbyte]

/-- The high byte of the accumulator cancels there: the step moves the low byte up. -/
theorem crcStep_hi (v : Word) : crcStep v (hi v) = (lo v).setWidth 16 <<< 8 := by
  have hlo := (lo v).isLt
  rw [crcStep, xor_hi_shiftLeft, crcRounds_of_lt]
  rw [BitVec.toNat_setWidth]
  omega

/-- A byte that stands alone in bits [15:8] is cancelled by itself. -/
theorem crcStep_self (b : Byte) : crcStep (b.setWidth 16 <<< 8) b = 0x0000#16 := by
  rw [crcStep, BitVec.xor_self, crcRounds_of_lt (by decide)]
  rfl

theorem checksum_append (d e : List Byte) : checksum (d ++ e) = e.foldl crcStep (checksum d) :=
  List.foldl_append

/-- Settles O37: the high byte of the checksum leaves its low byte, and the low byte leaves zero. -/
theorem checksumCancelsItself : Obligations.ChecksumCancelsItself := by
  intro d
  rw [checksum_append, be16, List.foldl_cons, List.foldl_cons, List.foldl_nil, crcStep_hi,
    crcStep_self]

/-! ### The operation and the fold -/

/-- Settles O33: CHECKSUM is one whole computation, given back as the response. -/
theorem checksumAnswersTheChecksum : Obligations.ChecksumAnswersTheChecksum :=
  execChecksum_eq

/-- Settles O35: both equations are the fold over a concatenation. -/
theorem checksumIsALeftFold : Obligations.ChecksumIsALeftFold :=
  ⟨checksum_nil, fun d b => checksum_append d [b], checksum_append⟩

/-- Settles O36: closed values of R72 and 95_test_vectors.md section 2.1, by evaluation in the kernel. -/
theorem checksumCheckValues : Obligations.ChecksumCheckValues := by
  unfold Obligations.ChecksumCheckValues
  decide +kernel

end Sys2Proof.Machine
end

section
/-!
SUPPORT. The frame encoder (41_encoder.md). The frame written out field by field is the model's `frame`, and
what a sequence written at index 0 leaves in a buffer is that sequence followed by the old bytes.
-/

namespace Sys2Proof.Machine

/-! ### What ENCODE writes and answers (R76, R78) -/

/-- The fields of R78, each byte and each count written out, are those of the model's frame. -/
theorem frame_eq_fields (header trailer : Word) (crcEn : Bool) (c : Byte) (p : List Byte) :
    frame header trailer crcEn c p =
      [hi header, lo header] ++ be16 (BitVec.ofNat 16 (1 + p.length)) ++ [c] ++ p ++
        (if crcEn then be16 (checksum (be16 (BitVec.ofNat 16 (1 + p.length)) ++ [c] ++ p)) else []) ++
        [hi trailer, lo trailer] := rfl

/-- Below its end a sequence written at index 0 is what the buffer holds. -/
theorem Memory.read_writeAll_zero_of_lt (m : Memory) {a : Nat} {f : List Byte} (h : a < f.length) :
    (m.writeAll 0 f).read a = f[a]? := by
  simp [Memory.read_writeAll, h]

/-- From its end on, a sequence written at index 0 leaves the buffer as it was. -/
theorem Memory.read_writeAll_zero_of_le (m : Memory) {a : Nat} {f : List Byte} (h : f.length ≤ a) :
    (m.writeAll 0 f).read a = m.read a := by
  simp [Memory.read_writeAll, h]

/-- Settles O39: the frame answered is the one of R78 field by field, and it alone is written to the scratch
buffer, from index 0. -/
theorem encodeAnswersTheFrame : Obligations.EncodeAnswersTheFrame := by
  intro c p f s hfits hf
  rw [← frame_eq_fields] at hf
  subst hf
  exact ⟨_, execEncode_of_fits (Nat.not_lt.2 hfits), rfl,
    fun _ h => Memory.read_writeAll_zero_of_lt s.scratch h,
    fun _ h => Memory.read_writeAll_zero_of_le s.scratch h⟩

/-! ### The payload that is too long (R77) -/

/-- Settles O40: the length check comes first, and giving the response is all that follows. -/
theorem encodeRejectsLongPayload : Obligations.EncodeRejectsLongPayload :=
  fun _ _ _ h => execEncode_of_tooLong h

/-! ### The frames of 95_test_vectors.md -/

/-- Settles O43: two closed frames, their checksums included, by evaluation in the kernel. -/
theorem endToEndFrame : Obligations.EndToEndFrame := by
  unfold Obligations.EndToEndFrame
  decide +kernel

end Sys2Proof.Machine
end

section
/-!
SUPPORT. FEED row by row (42_decoder.md, R82 to R93): what the FEED of each decoder state answers, as an equation,
and the statements about the rows.
-/

namespace Sys2Proof.Machine

/-! ### The rows and FEED (R57, R60, R82) -/

theorem requestForm_feedRow (d : DState) (b : Byte) : (feedRow d b).requestForm = .feed b := by
  cases d <;> rfl

theorem exec_feedRow (d : DState) (b : Byte) (s : State) : exec (feedRow d b) s = exec (.feed b) s := by
  rw [← exec_requestForm, requestForm_feedRow]

/-- Settles O20: a row spells FEED, in its own state as in any other. -/
theorem feedRunsTheRowOfItsState : Obligations.FeedRunsTheRowOfItsState :=
  fun b s => ⟨(exec_feedRow s.dstate b s).symm, fun d => exec_feedRow d b s⟩

/-- FEED, and the row of the state it begins in, run the rule of that state. -/
theorem exec_row {d : DState} {b : Byte} {s : State} {i : Instr} (h : i = .feed b ∨ i = feedRow d b)
    (hd : s.dstate = d) : exec i s = finishFeed (ruleOf d b s) := by
  rcases h with rfl | rfl
  · exact execFeed_eq b hd
  · exact (exec_feedRow d b s).trans (execFeed_eq b hd)

theorem exec_row_of_ok {d : DState} {b : Byte} {s t : State} {i : Instr}
    (h : i = .feed b ∨ i = feedRow d b) (hd : s.dstate = d) (ht : ruleOf d b s = .ok t) :
    exec i s = .next (t.respond .ack) := by
  rw [exec_row h hd, ht, finishFeed_ok]

/-- A rule that ends in a test of the byte gives `Ack` on both branches. -/
theorem respond_ite {c : Prop} [Decidable c] (t u : State) (r : Response) :
    (if c then t else u).respond r = if c then t.respond r else u.respond r :=
  apply_ite (·.respond r) c t u

/-! ### The rules where they do not stop -/

theorem ruleWaitLengthLo_of_lt {s : State} (b : Byte) (h : s.spanLen.toNat < s.spanCap) :
    ruleWaitLengthLo b s = .ok (checkLength { s with
      span := s.span.write s.spanLen.toNat b
      spanLen := s.spanLen + 1#17
      lenReg := setLo s.lenReg b }) :=
  (ruleWaitLengthLo_eq b s).trans (if_pos h)

theorem ruleWaitCmd_of_lt {s : State} (b : Byte) (h : s.spanLen.toNat < s.spanCap) :
    ruleWaitCmd b s = .ok { s with
      span := s.span.write s.spanLen.toNat b
      spanLen := s.spanLen + 1#17
      cmdReg := b
      idx := 0x0000#16
      dstate := if s.NoPayload then s.afterPayload else .readData } :=
  (ruleWaitCmd_eq b s).trans (if_pos h)

theorem ruleReadData_of_lt {s : State} (b : Byte) (hidx : s.idx.toNat < s.pbufCap)
    (hspan : s.spanLen.toNat < s.spanCap) :
    ruleReadData b s = .ok (checkPayload { s with
      pbuf := s.pbuf.write s.idx.toNat b
      idx := s.idx + 1#16
      span := s.span.write s.spanLen.toNat b
      spanLen := s.spanLen + 1#17 }) :=
  (ruleReadData_eq b s).trans ((if_pos hidx).trans (if_pos hspan))

theorem ruleWaitCrc2_of_span {s : State} {data : List Byte} (b : Byte)
    (hcap : s.spanLen.toNat ≤ s.spanCap) (hspan : s.span? = some data) :
    ruleWaitCrc2 b s =
      .ok (checkCrc (checksum data) { s with crcAcc := none, rxCrc := setLo s.rxCrc b }) := by
  rw [ruleWaitCrc2, State.readSpan_ok.2 ⟨hcap, hspan⟩]
  simp only [State.runChecksum_eq]

theorem ruleWaitEnd2_of_payload {s : State} {b : Byte} {p : List Byte} (hb : s.TrailerLo b)
    (hcap : s.idx.toNat ≤ s.pbufCap) (hp : s.payload? = some p) :
    ruleWaitEnd2 b s = .ok (s.emit (.packet s.cmdReg p)).hunt := by
  rw [ruleWaitEnd2, if_pos hb, State.readPayload_ok.2 ⟨hcap, hp⟩]

theorem ruleWaitEnd2_of_ne {s : State} {b : Byte} (hb : ¬ s.TrailerLo b) :
    ruleWaitEnd2 b s = .ok s.hunt := if_neg hb

/-! ### The header (R84, R85) -/

/-- Settles O22: both branches answer the state with `dstate` set, to what it was where the byte is no header. -/
theorem feedInWaitHeader1 : Obligations.FeedInWaitHeader1 := by
  intro b s i h hd
  rw [exec_row_of_ok (d := .waitHeader1) h hd rfl, respond_ite]
  by_cases hb : b = hi s.cfgHeader
  · rw [if_pos hb, if_pos hb]
    rfl
  · rw [if_neg hb, if_neg hb, ← hd]
    rfl

/-- Settles O23: the rule's one test, and `Ack` after either branch. -/
theorem feedInWaitHeader2 : Obligations.FeedInWaitHeader2 := by
  intro b s i h hd
  rw [exec_row_of_ok (d := .waitHeader2) h hd rfl, respond_ite]
  rfl

/-! ### The length (R86, R87) -/

/-- Settles O24: the span starts anew with the byte at index 0, and no other index is written. -/
theorem feedInWaitLengthHi : Obligations.FeedInWaitLengthHi := by
  intro b s i h hd
  exact ⟨_, exec_row_of_ok (d := .waitLengthHi) h hd rfl, rfl, Memory.read_write_self _ _ _,
    fun a ha => Memory.read_write_of_ne _ _ ha⟩

/-- Settles O25: the byte is appended, and the length check on the completed register selects one of the two
results. -/
theorem feedInWaitLengthLo : Obligations.FeedInWaitLengthLo := by
  intro b s i h hd hcap
  have hexec := exec_row_of_ok (d := .waitLengthLo) h hd (ruleWaitLengthLo_of_lt b hcap)
  rcases checkLength_cases _ with ⟨hlegal, ht⟩ | ⟨hillegal, ht⟩ <;> rw [ht] at hexec
  · exact ⟨_, hexec, Memory.read_write_self _ _ _, fun a ha => Memory.read_write_of_ne _ _ ha,
      fun _ => rfl, fun hn => absurd hlegal hn⟩
  · exact ⟨_, hexec, Memory.read_write_self _ _ _, fun a ha => Memory.read_write_of_ne _ _ ha,
      fun hl => absurd hl hillegal, fun _ => rfl⟩

/-! ### The command and the payload (R88, R89) -/

theorem noPayload_iff (s : State) : s.NoPayload ↔ s.lenReg = 0x0001#16 :=
  BitVec.toNat_inj (y := 0x0001#16)

/-- Settles O26: the length 1 of the rule's test is the register value 1. -/
theorem feedInWaitCmd : Obligations.FeedInWaitCmd := by
  intro b s i h hd hcap
  refine ⟨_, exec_row_of_ok (d := .waitCmd) h hd (ruleWaitCmd_of_lt b hcap),
    Memory.read_write_self _ _ _, fun a ha => Memory.read_write_of_ne _ _ ha, ?_⟩
  simp only [noPayload_iff]
  rfl

/-- The end-of-payload test sets the decoder state alone. -/
theorem checkPayload_eq (s : State) :
    checkPayload s = { s with dstate := if s.PayloadComplete then s.afterPayload else s.dstate } := by
  rcases checkPayload_cases s with ⟨h, ht⟩ | ⟨h, ht⟩ <;> rw [ht]
  · rw [if_pos h]
  · rw [if_neg h]

/-- Settles O27: an index inside the buffer has room for one more, so the test on the incremented index is exact. -/
theorem feedInReadData : Obligations.FeedInReadData := by
  intro b s i h hd hidx hcap
  have hnext : (s.idx + 1#16).toNat = s.idx.toNat + 1 := toNat_add_one (by omega)
  have hexec := exec_row_of_ok (d := .readData) h hd (ruleReadData_of_lt b hidx hcap)
  rw [checkPayload_eq] at hexec
  refine ⟨_, hexec, Memory.read_write_self _ _ _, fun a ha => Memory.read_write_of_ne _ _ ha,
    Memory.read_write_self _ _ _, fun a ha => Memory.read_write_of_ne _ _ ha, ?_⟩
  simp only [State.PayloadComplete, hnext, hd]
  rfl

/-! ### The checksum (R90, R91) -/

/-- Settles O28: the rule makes no test. -/
theorem feedInWaitCrc1 : Obligations.FeedInWaitCrc1 :=
  fun _ _ _ h hd => exec_row_of_ok (d := .waitCrc1) h hd rfl

/-- Settles O29: a written span is read whole, and its checksum compared with the completed register. -/
theorem feedInWaitCrc2 : Obligations.FeedInWaitCrc2 := by
  intro b s i data h hd hcap hspan
  rw [exec_row_of_ok (d := .waitCrc2) h hd (ruleWaitCrc2_of_span b hcap hspan), checkCrc, respond_ite]
  rfl

/-! ### The trailer (R92, R93) -/

/-- Settles O30: the rule's one test, and `Ack` after either branch. -/
theorem feedInWaitEnd1 : Obligations.FeedInWaitEnd1 := by
  intro b s i h hd
  rw [exec_row_of_ok (d := .waitEnd1) h hd rfl, respond_ite]
  rfl

/-- Settles O31: a written payload is read whole before HUNT, and its event precedes `Ack`. -/
theorem feedInWaitEnd2 : Obligations.FeedInWaitEnd2 := by
  refine fun b s i h hd => ⟨fun p hb hcap hp => ?_, fun hb => ?_⟩
  · rw [exec_row_of_ok (d := .waitEnd2) h hd (ruleWaitEnd2_of_payload hb hcap hp)]
    simp [State.respond, State.hunt, State.emit]
  · exact exec_row_of_ok (d := .waitEnd2) h hd (ruleWaitEnd2_of_ne hb)

end Sys2Proof.Machine
end

section
/-!
SUPPORT. FEED stops in no state of the invariant (R95, R96), so no step and no run does (R111).
-/

namespace Sys2Proof.Machine

/-! ### Responses and events of a list of outputs -/

theorem responsesOf_append (xs ys : List Output) :
    responsesOf (xs ++ ys) = responsesOf xs ++ responsesOf ys := by
  induction xs with
  | nil => rfl
  | cons x xs ih => cases x <;> simp [responsesOf, ih]

theorem eventsOf_append (xs ys : List Output) : eventsOf (xs ++ ys) = eventsOf xs ++ eventsOf ys := by
  induction xs with
  | nil => rfl
  | cons x xs ih => cases x <;> simp [eventsOf, ih]

@[simp] theorem State.respond_responses (s : State) (r : Response) :
    (s.respond r).responses = s.responses ++ [r] := responsesOf_append s.outputs _

@[simp] theorem State.respond_events (s : State) (r : Response) : (s.respond r).events = s.events :=
  (eventsOf_append s.outputs _).trans (List.append_nil _)

@[simp] theorem State.emit_responses (s : State) (e : Event) : (s.emit e).responses = s.responses :=
  (responsesOf_append s.outputs _).trans (List.append_nil _)

@[simp] theorem State.emit_events (s : State) (e : Event) : (s.emit e).events = s.events ++ [e] :=
  eventsOf_append s.outputs _

@[simp] theorem State.hunt_responses (s : State) : s.hunt.responses = s.responses := rfl

@[simp] theorem State.hunt_events (s : State) : s.hunt.events = s.events := rfl

/-- A rule gives no response; that is left to the end of the FEED (R82). -/
theorem ruleOf_responses {d : DState} {b : Byte} {s t : State} (h : ruleOf d b s = .ok t) :
    t.responses = s.responses := by
  rcases ruleOf_ok h with hs | ⟨-, -, p, -, rfl⟩
  · obtain ⟨-, -, -, hout⟩ := outside_eq_iff.1 hs
    exact (congrArg responsesOf hout).symm
  · simp

/-! ### FEED in the invariant (R95) -/

/-- The invariant puts every index a rule uses inside its buffer, on written bytes. -/
theorem ruleOf_total {s : State} (hs : s.Inv) (b : Byte) : ∃ t, ruleOf s.dstate b s = .ok t := by
  obtain ⟨happend, hdata, hcrc, hend⟩ := inv_reads_within hs
  cases hd : s.dstate with
  | waitHeader1 | waitHeader2 | waitLengthHi | waitCrc1 | waitEnd1 => exact ⟨_, rfl⟩
  | waitLengthLo => exact ⟨_, ruleWaitLengthLo_of_lt b (happend (.inl hd))⟩
  | waitCmd => exact ⟨_, ruleWaitCmd_of_lt b (happend (.inr hd))⟩
  | readData =>
    obtain ⟨hidx, hspan⟩ := hdata hd
    exact ⟨_, ruleReadData_of_lt b hidx hspan⟩
  | waitCrc2 =>
    obtain ⟨hcap, hwritten⟩ := hcrc hd
    obtain ⟨data, hspan⟩ := Option.ne_none_iff_exists'.1 hwritten
    exact ⟨_, ruleWaitCrc2_of_span b hcap hspan⟩
  | waitEnd2 =>
    obtain ⟨hcap, hwritten⟩ := hend hd
    obtain ⟨p, hp⟩ := Option.ne_none_iff_exists'.1 hwritten
    by_cases hb : s.TrailerLo b
    · exact ⟨_, ruleWaitEnd2_of_payload hb hcap hp⟩
    · exact ⟨_, ruleWaitEnd2_of_ne hb⟩

/-- Settles O21: the rule of the state goes on, every operation keeps the invariant, and `Ack` ends the FEED. -/
theorem feedIsTotal : Obligations.FeedIsTotal := by
  intro b s i hs h
  have hfeed : exec i s = exec (.feed b) s := by
    rcases h with rfl | ⟨d, rfl⟩
    · rfl
    · exact exec_feedRow d b s
  obtain ⟨u, hu⟩ := ruleOf_total hs b
  have hexec : exec i s = .next (u.respond .ack) := hfeed.trans (exec_row_of_ok (.inl rfl) rfl hu)
  exact ⟨_, hexec, exec_inv hs hexec, by rw [State.respond_responses, ruleOf_responses hu]⟩

/-! ### Steps and runs (R101, R111) -/

/-- Settles O2: with no request to take, the step is idle. -/
theorem idleCoreHoldsItsState : Obligations.IdleCoreHoldsItsState := fun _ h => step_of_requests_nil h

theorem exec_total {s : State} (hs : s.Inv) (i : Instr) : ∃ t, exec i s = .next t := by
  rw [← exec_requestForm]
  rcases requestForm_cases i with ⟨b, hi⟩ | hi | ⟨c, p, hi⟩ | ⟨data, hi⟩ <;> rw [hi]
  · obtain ⟨t, ht, -⟩ := feedIsTotal b s _ hs (.inl rfl)
    exact ⟨t, ht⟩
  · exact ⟨_, rfl⟩
  · obtain ⟨t, ht, -⟩ := exec_encode_response c p s
    exact ⟨t, ht⟩
  · exact ⟨_, execChecksum_eq data s⟩

theorem step_total {s : State} (hs : s.Inv) : ∃ t, step s = .next t := by
  cases hr : s.requests with
  | nil => exact ⟨_, step_of_requests_nil hr⟩
  | cons r rest =>
    cases hd : decode r with
    | error e => exact ⟨_, step_of_decode_error hr hd⟩
    | ok i =>
      rw [step_of_decode_ok hr hd]
      exact exec_total (s := { s with requests := rest }) hs i

/-- Where every step from a state with a property goes on and keeps it, no run from such a state stops. -/
theorem run_total {M : Host.Core} {P : M.State → Prop}
    (hstep : ∀ s, P s → ∃ t, M.step s = .next t ∧ P t) (k : Nat) {s : M.State} (hs : P s) :
    ∃ t, M.run k s = .next t := by
  induction k generalizing s with
  | zero => exact ⟨s, rfl⟩
  | succ k ih =>
    obtain ⟨u, hu, hPu⟩ := hstep s hs
    obtain ⟨t, ht⟩ := ih hPu
    exact ⟨t, run_succ_next_iff.2 ⟨u, hu, ht⟩⟩

/-- Settles O17: construction meets the invariant, in which every step goes on and which it keeps. -/
theorem noRunEverStops : Obligations.NoRunEverStops := by
  intro p s rs k hs
  have hinit : State.Inv { s with requests := rs } := constructionMeetsInvariant p s hs
  refine run_total (M := Sys2Proof.core) (P := State.Inv) (fun t ht => ?_) k hinit
  obtain ⟨u, hu⟩ := step_total ht
  exact ⟨u, hu, stepKeepsTableOfR28 t u ht hu⟩

end Sys2Proof.Machine
end

section
/-!
SUPPORT. The running-register decoder (R98, R139) runs in step with the span buffer: the two states differ in SPAN
and span_len only, every rule commutes with an exchange of these, and a byte appended to the span advances the
register by one `CRC_STEP`.
-/

namespace Sys2Proof.Machine

/-- A state with another span buffer and another span length. -/
def State.withSpan (s : State) (span : Memory) (spanLen : BitVec 17) : State :=
  { s with span := span, spanLen := spanLen }

/-- The register that stands for the span holds its checksum. -/
def State.SpanSums (s : State) (crcRun : Word) : Prop := s.span?.map checksum = some crcRun

theorem standsFor_withSpan {s : State} {crcRun : Word} (span : Memory) (spanLen : BitVec 17)
    (h : s.dstate.spanOpen = true → s.SpanSums crcRun) :
    RunningState.StandsFor ⟨s.withSpan span spanLen, crcRun⟩ s := ⟨rfl, h⟩

/-- The running states that stand for a state are that state with any span, and its checksum beside it. -/
theorem standsFor_iff {r : RunningState} {s : State} :
    r.StandsFor s ↔ ∃ span spanLen crcRun, r = ⟨s.withSpan span spanLen, crcRun⟩ ∧
      (s.dstate.spanOpen = true → s.SpanSums crcRun) := by
  constructor
  · rintro ⟨hm, hsum⟩
    refine ⟨r.machine.span, r.machine.spanLen, r.crcRun, ?_, hsum⟩
    rw [State.withSpan, ← hm]
  · rintro ⟨span, spanLen, crcRun, rfl, hsum⟩
    exact standsFor_withSpan span spanLen hsum

/-- After HUNT the span is closed and the register stands for nothing (R83). -/
theorem standsFor_hunt (s : State) (span : Memory) (spanLen : BitVec 17) (crcRun : Word) :
    RunningState.StandsFor ⟨(s.withSpan span spanLen).hunt, crcRun⟩ s.hunt := ⟨rfl, fun h => nomatch h⟩

theorem standsFor_ite {c : Prop} [Decidable c] {m m' s s' : State} {crcRun : Word}
    (h : RunningState.StandsFor ⟨m, crcRun⟩ s) (h' : RunningState.StandsFor ⟨m', crcRun⟩ s') :
    RunningState.StandsFor ⟨if c then m else m', crcRun⟩ (if c then s else s') := by
  split <;> assumption

theorem RunningState.StandsFor.respond {q : RunningState} {t : State} (h : q.StandsFor t)
    (a : Response) : RunningState.StandsFor { q with machine := q.machine.respond a } (t.respond a) := by
  obtain ⟨span, spanLen, crcRun, rfl, hsum⟩ := standsFor_iff.1 h
  exact standsFor_withSpan (s := t.respond a) span spanLen hsum

theorem RunningState.StandsFor.outputs_eq {q : RunningState} {t : State} (h : q.StandsFor t) :
    q.machine.outputs = t.outputs := by
  obtain ⟨span, spanLen, crcRun, rfl, -⟩ := standsFor_iff.1 h
  rfl

/-- One more byte in the span is one more step of the register (R70). -/
theorem spanSums_append {s : State} {crcRun : Word} (b : Byte) (hs : s.Inv) (h : s.SpanSums crcRun) :
    ((s.span.write s.spanLen.toNat b).readRange (s.spanLen + 1#17).toNat).map checksum =
      some (crcStep crcRun b) := by
  obtain ⟨data, hspan, rfl⟩ := Option.map_eq_some_iff.1 h
  have hlen := (indicesStayWithinBuffers s hs).2
  have hmax := s.cfgMaxPay.isLt
  rw [readRange_append b (by omega) hspan, Option.map_some, checksum_append]
  rfl

/-! ### The rule of each state -/

/-- The running-register rule answers a state that stands for the one the span buffer's rule answers. -/
theorem runningRule_standsFor {b : Byte} {s t : State} {r : RunningState} (hs : s.Inv)
    (hr : r.StandsFor s) (h : ruleOf s.dstate b s = .ok t) :
    ∃ q, runningRule b r = .ok q ∧ q.StandsFor t := by
  obtain ⟨span, spanLen, crcRun, rfl, hsum⟩ := standsFor_iff.1 hr
  have hdstate : (s.withSpan span spanLen).dstate = s.dstate := rfl
  cases hd : s.dstate <;> rw [hd] at h hsum <;> simp only [runningRule, hdstate, hd]
  case waitHeader1 =>
    obtain rfl := Except.ok.inj h
    exact ⟨_, rfl, standsFor_ite ⟨rfl, fun h => nomatch h⟩ hr⟩
  case waitHeader2 | waitEnd1 =>
    obtain rfl := Except.ok.inj h
    exact ⟨_, rfl, standsFor_ite ⟨rfl, fun h => nomatch h⟩ (standsFor_hunt s span spanLen crcRun)⟩
  case waitLengthHi =>
    obtain rfl := Except.ok.inj h
    have hspan : (s.span.write 0 b).readRange 1 = some [b] :=
      Memory.readRange_write_end (n := 0) b rfl
    exact ⟨_, rfl, rfl, fun _ => congrArg (Option.map checksum) hspan⟩
  case waitLengthLo =>
    obtain ⟨-, rfl⟩ := ruleWaitLengthLo_ok h
    exact ⟨_, rfl, standsFor_ite ⟨rfl, fun _ => spanSums_append b hs (hsum rfl)⟩
      (standsFor_hunt _ span spanLen _)⟩
  case waitCmd =>
    obtain ⟨-, rfl⟩ := ruleWaitCmd_ok h
    exact ⟨_, rfl, rfl, fun _ => spanSums_append b hs (hsum rfl)⟩
  case readData =>
    obtain ⟨hidx, -, rfl⟩ := ruleReadData_ok h
    rw [State.appendPayload_of_lt (s := s.withSpan span spanLen) b hidx]
    have hsum' := spanSums_append b hs (hsum rfl)
    exact ⟨_, rfl, standsFor_ite ⟨rfl, fun _ => hsum'⟩ ⟨rfl, fun _ => hsum'⟩⟩
  case waitCrc1 =>
    obtain rfl := Except.ok.inj h
    exact ⟨_, rfl, rfl, fun _ => hsum rfl⟩
  case waitCrc2 =>
    obtain ⟨data, -, hspan, rfl⟩ := ruleWaitCrc2_ok h
    have hcrc : some (checksum data) = some crcRun := by
      rw [← hsum rfl, hspan, Option.map_some]
    obtain ⟨-, hacc, -⟩ := hs
    rw [Option.some.inj hcrc, ← hacc]
    exact ⟨_, rfl, standsFor_ite ⟨rfl, fun h => nomatch h⟩ (standsFor_hunt _ span spanLen _)⟩
  case waitEnd2 =>
    rcases ruleWaitEnd2_ok h with ⟨hb, p, hcap, hp, rfl⟩ | ⟨hb, rfl⟩
    · rw [ruleWaitEnd2_of_payload (s := s.withSpan span spanLen) hb hcap hp]
      exact ⟨_, rfl, standsFor_hunt (s.emit (.packet s.cmdReg p)) span spanLen crcRun⟩
    · rw [ruleWaitEnd2_of_ne (s := s.withSpan span spanLen) hb]
      exact ⟨_, rfl, standsFor_hunt s span spanLen crcRun⟩

theorem execFeedRunning_of_ok {b : Byte} {r q : RunningState} (h : runningRule b r = .ok q) :
    execFeedRunning b r = .next { q with machine := q.machine.respond .ack } := by
  rw [execFeedRunning, h]

/-- Settles O58: in the invariant the rule of the state goes on, the running-register rule goes with it, and both
answer `Ack`. -/
theorem runningRegisterIsEquivalent : Obligations.RunningRegisterIsEquivalent := by
  intro b s r hs hr
  obtain ⟨t, ht⟩ := ruleOf_total hs b
  obtain ⟨q, hq, hqt⟩ := runningRule_standsFor hs hr ht
  exact ⟨_, _, exec_row_of_ok (.inl rfl) rfl ht, execFeedRunning_of_ok hq, hqt.respond .ack,
    (hqt.respond .ack).outputs_eq⟩

end Sys2Proof.Machine
end

section
/-!
SUPPORT. Byte streams: feeding one byte after another, and runs of FEEDs that deliver nothing.
-/

namespace Sys2Proof.Machine

/-! ### One byte of a stream at a time (R33, R42) -/

/-- A state with other requests pending. -/
def State.withRequests (s : State) (rs : List Request) : State := { s with requests := rs }

theorem ok_ite_withRequests {c : Prop} [Decidable c] {t u t' u' : State} {rs : List Request}
    (ht : t' = t.withRequests rs) (hu : u' = u.withRequests rs) :
    (.ok (if c then t' else u') : Except Fault State) = .ok ((if c then t else u).withRequests rs) := by
  subst ht hu
  split <;> rfl

/-- No rule reads or takes the pending requests. -/
theorem ruleOf_withRequests {d : DState} {b : Byte} {s t : State} (rs : List Request)
    (h : ruleOf d b s = .ok t) : ruleOf d b (s.withRequests rs) = .ok (t.withRequests rs) := by
  cases d with
  | waitHeader1 | waitHeader2 | waitEnd1 =>
    obtain rfl := Except.ok.inj h
    exact ok_ite_withRequests rfl rfl
  | waitLengthHi | waitCrc1 =>
    obtain rfl := Except.ok.inj h
    rfl
  | waitLengthLo =>
    obtain ⟨hcap, rfl⟩ := ruleWaitLengthLo_ok h
    exact (ruleWaitLengthLo_of_lt (s := s.withRequests rs) b hcap).trans
      (ok_ite_withRequests rfl rfl)
  | waitCmd =>
    obtain ⟨hcap, rfl⟩ := ruleWaitCmd_ok h
    exact ruleWaitCmd_of_lt (s := s.withRequests rs) b hcap
  | readData =>
    obtain ⟨hidx, hcap, rfl⟩ := ruleReadData_ok h
    exact (ruleReadData_of_lt (s := s.withRequests rs) b hidx hcap).trans
      (ok_ite_withRequests rfl rfl)
  | waitCrc2 =>
    obtain ⟨data, hcap, hspan, rfl⟩ := ruleWaitCrc2_ok h
    exact (ruleWaitCrc2_of_span (s := s.withRequests rs) b hcap hspan).trans
      (ok_ite_withRequests rfl rfl)
  | waitEnd2 =>
    rcases ruleWaitEnd2_ok h with ⟨hb, p, hcap, hp, rfl⟩ | ⟨hb, rfl⟩
    · exact ruleWaitEnd2_of_payload (s := s.withRequests rs) hb hcap hp
    · exact ruleWaitEnd2_of_ne (s := s.withRequests rs) hb

theorem exec_feed_withRequests {b : Byte} {s t : State} (rs : List Request)
    (h : exec (.feed b) s = .next t) :
    exec (.feed b) (s.withRequests rs) = .next (t.withRequests rs) := by
  obtain ⟨u, hu, rfl⟩ := finishFeed_next.1 h
  exact exec_row_of_ok (.inl rfl) rfl (ruleOf_withRequests rs hu)

/-- The step that takes a FEED's request is that FEED. -/
theorem step_feedRequest {b : Byte} {s t : State} (rs : List Request) (h : exec (.feed b) s = .next t) :
    step (s.withRequests (feedRequest b :: rs)) = .next (t.withRequests rs) := by
  rw [step_of_decode_ok (i := .feed b) rfl rfl]
  exact exec_feed_withRequests (s := s) rs h

theorem run_succ_of_next {M : Host.Core} {k : Nat} {s u : M.State} (h : M.step s = .next u) :
    M.run (k + 1) s = M.run k u := by
  rw [Host.Core.run, h]

theorem feedAll_nil (s : State) : feedAll [] s = .next (s.withRequests []) := rfl

/-- A byte stream is fed by feeding its first byte and then the rest. -/
theorem feedAll_cons {b : Byte} {s t : State} (bytes : List Byte) (h : exec (.feed b) s = .next t) :
    feedAll (b :: bytes) s = feedAll bytes t :=
  run_succ_of_next (M := Sys2Proof.core) (step_feedRequest (bytes.map feedRequest) h)

theorem visited_cons {b : Byte} {s t : State} (bytes : List Byte) (h : exec (.feed b) s = .next t) :
    visited (b :: bytes) s = t.dstate :: visited bytes t := by
  rw [visited, h]

/-! ### Runs of FEEDs that deliver nothing -/

/-- Fed these bytes, none of them in WAIT_END_2, the decoder goes through these states and ends in `t`. -/
inductive QuietRun : State → List Byte → List DState → State → Prop where
  | nil (s : State) : QuietRun s [] [] s
  | cons {s u t : State} {b : Byte} {bytes : List Byte} {ds : List DState} (hd : s.dstate ≠ .waitEnd2)
      (h : exec (.feed b) s = .next u) (rest : QuietRun u bytes ds t) :
      QuietRun s (b :: bytes) (u.dstate :: ds) t

theorem QuietRun.append {s t u : State} {xs ys : List Byte} {ds es : List DState}
    (h : QuietRun s xs ds t) (h' : QuietRun t ys es u) : QuietRun s (xs ++ ys) (ds ++ es) u := by
  induction h with
  | nil => exact h'
  | cons hd hexec _ ih => exact .cons hd hexec (ih h')

theorem QuietRun.feedAll_append {s t : State} {xs : List Byte} {ds : List DState}
    (h : QuietRun s xs ds t) (ys : List Byte) : feedAll (xs ++ ys) s = feedAll ys t := by
  induction h with
  | nil => rfl
  | cons _ hexec _ ih => exact (feedAll_cons _ hexec).trans ih

theorem QuietRun.feedAll_eq {s t : State} {xs : List Byte} {ds : List DState}
    (h : QuietRun s xs ds t) : feedAll xs s = .next (t.withRequests []) := by
  simpa [feedAll_nil] using h.feedAll_append []

theorem QuietRun.visited_append {s t : State} {xs : List Byte} {ds : List DState}
    (h : QuietRun s xs ds t) (ys : List Byte) : visited (xs ++ ys) s = ds ++ visited ys t := by
  induction h with
  | nil => rfl
  | cons _ hexec _ ih => exact (visited_cons _ hexec).trans (congrArg _ ih)

theorem QuietRun.sameConfig {s t : State} {xs : List Byte} {ds : List DState}
    (h : QuietRun s xs ds t) : SameConfig s t := by
  induction h with
  | nil => exact ⟨rfl, rfl, rfl, rfl⟩
  | cons _ hexec _ ih =>
    obtain ⟨hh, ht, hm, hc⟩ := exec_sameConfig hexec
    obtain ⟨hh', ht', hm', hc'⟩ := ih
    exact ⟨hh.trans hh', ht.trans ht', hm.trans hm', hc.trans hc'⟩

/-- Only WAIT_END_2 delivers (R93). -/
theorem exec_feed_events {b : Byte} {s t : State} (hd : s.dstate ≠ .waitEnd2)
    (h : exec (.feed b) s = .next t) : t.events = s.events := by
  obtain ⟨u, hu, rfl⟩ := finishFeed_next.1 h
  rcases ruleOf_ok hu with hs | ⟨hend, -⟩
  · obtain ⟨-, -, -, hout⟩ := outside_eq_iff.1 hs
    exact (State.respond_events u .ack).trans (congrArg eventsOf hout).symm
  · exact absurd hend hd

theorem QuietRun.events_eq {s t : State} {xs : List Byte} {ds : List DState}
    (h : QuietRun s xs ds t) : t.events = s.events := by
  induction h with
  | nil => rfl
  | cons hd hexec _ ih => exact ih.trans (exec_feed_events hd hexec)

end Sys2Proof.Machine
end

section
/-!
SUPPORT. A frame field by field (R84 to R93): each field leads the decoder on without an event, the registers and
buffers hold what has been received, and the last byte delivers it.
-/

namespace Sys2Proof.Machine

/-- One FEED that delivers nothing. -/
theorem QuietRun.single {s t : State} {b : Byte} {d e : DState} (hd : s.dstate = d)
    (hne : d ≠ .waitEnd2) (h : exec (.feed b) s = .next t) (ht : t.dstate = e) :
    QuietRun s [b] [e] t := by
  subst hd ht
  exact .cons hne h (.nil t)

/-! ### The header (R84, R85) -/

theorem quietRun_headerHi {s : State} {b : Byte} (hd : s.dstate = .waitHeader1)
    (hb : b = hi s.cfgHeader) :
    ∃ t, QuietRun s [b] [.waitHeader2] t ∧ t.dstate = .waitHeader2 := by
  have h := feedInWaitHeader1 b s _ (.inl rfl) hd
  rw [if_pos hb] at h
  exact ⟨_, .single hd (by decide) h rfl, rfl⟩

theorem quietRun_headerLo {s : State} {b : Byte} (hd : s.dstate = .waitHeader2)
    (hb : b = lo s.cfgHeader) :
    ∃ t, QuietRun s [b] [.waitLengthHi] t ∧ t.dstate = .waitLengthHi := by
  have h := feedInWaitHeader2 b s _ (.inl rfl) hd
  rw [if_pos hb] at h
  exact ⟨_, .single hd (by decide) h rfl, rfl⟩

theorem quietRun_headerAbort {s : State} {b : Byte} (hd : s.dstate = .waitHeader2)
    (hb : b ≠ lo s.cfgHeader) :
    ∃ t, QuietRun s [b] [.waitHeader1] t ∧ t.dstate = .waitHeader1 := by
  have h := feedInWaitHeader2 b s _ (.inl rfl) hd
  rw [if_neg hb] at h
  exact ⟨_, .single hd (by decide) h rfl, rfl⟩

theorem quietRun_header {s : State} (hd : s.dstate = .waitHeader1) :
    ∃ t, QuietRun s (be16 s.cfgHeader) [.waitHeader2, .waitLengthHi] t ∧
      t.dstate = .waitLengthHi := by
  obtain ⟨u, hu, hdu⟩ := quietRun_headerHi hd rfl
  obtain ⟨hheader, -⟩ := hu.sameConfig
  obtain ⟨t, ht, hdt⟩ := quietRun_headerLo hdu (congrArg lo hheader)
  exact ⟨t, hu.append ht, hdt⟩

/-! ### The length (R86, R87) -/

theorem quietRun_lengthHi {s : State} (b : Byte) (hd : s.dstate = .waitLengthHi) :
    ∃ t, QuietRun s [b] [.waitLengthLo] t ∧ t.dstate = .waitLengthLo ∧ hi t.lenReg = b ∧
      t.spanLen = 1#17 ∧ t.span? = some [b] :=
  ⟨_, .single hd (by decide) (exec_row_of_ok (.inl rfl) hd rfl) rfl, rfl, hi_setHi _ _, rfl,
    Memory.readRange_write_end (n := 0) b rfl⟩

theorem quietRun_lengthLo {s : State} {b h : Byte} (hd : s.dstate = .waitLengthLo)
    (hhi : hi s.lenReg = h) (hlen : s.spanLen = 1#17) (hspan : s.span? = some [h])
    (hmin : 1 ≤ (join h b).toNat) (hmax : (join h b).toNat ≤ s.cfgMaxPay.toNat + 1) :
    ∃ t, QuietRun s [b] [.waitCmd] t ∧ t.dstate = .waitCmd ∧ t.lenReg = join h b ∧
      t.spanLen = 2#17 ∧ t.span? = some [h, b] := by
  subst hhi
  have hcap : s.spanLen.toNat < s.spanCap := by simp [hlen, State.spanCap]
  have hrule := ruleWaitLengthLo_of_lt b hcap
  rw [checkLength, if_pos ⟨hmin, hmax⟩] at hrule
  exact ⟨_, .single hd (by decide) (exec_row_of_ok (.inl rfl) hd hrule) rfl, rfl, rfl,
    congrArg (· + 1#17) hlen, readRange_append b (by simp [hlen]) hspan⟩

theorem quietRun_length {s : State} {len : Word} (hd : s.dstate = .waitLengthHi)
    (hmin : 1 ≤ len.toNat) (hmax : len.toNat ≤ s.cfgMaxPay.toNat + 1) :
    ∃ t, QuietRun s (be16 len) [.waitLengthLo, .waitCmd] t ∧ t.dstate = .waitCmd ∧ t.lenReg = len ∧
      t.spanLen = 2#17 ∧ t.span? = some (be16 len) := by
  obtain ⟨u, hu, hdu, hhi, hlen, hspan⟩ := quietRun_lengthHi (hi len) hd
  obtain ⟨-, -, hcfg, -⟩ := hu.sameConfig
  rw [hcfg] at hmax
  rw [← join_hi_lo len] at hmin hmax
  obtain ⟨t, ht, hdt, hreg, hrest⟩ := quietRun_lengthLo hdu hhi hlen hspan hmin hmax
  exact ⟨t, hu.append ht, hdt, hreg.trans (join_hi_lo len), hrest⟩

/-! ### The command and the payload (R88, R89) -/

/-- The registers and the buffers hold a length, a command and this much of the payload. -/
def State.Holds (s : State) (len : Word) (c : Byte) (q : List Byte) : Prop :=
  s.lenReg = len ∧ s.cmdReg = c ∧ s.idx.toNat = q.length ∧ s.payload? = some q ∧
  s.spanLen.toNat = 3 + q.length ∧ s.span? = some (be16 len ++ c :: q)

/-- The decoder state in which the rest of a payload is awaited. -/
def State.awaiting (s : State) (rest : List Byte) : DState :=
  if rest = [] then s.afterPayload else .readData

theorem quietRun_cmd {s : State} {len : Word} {p : List Byte} (c : Byte) (hd : s.dstate = .waitCmd)
    (hreg : s.lenReg = len) (hlen : s.spanLen = 2#17) (hspan : s.span? = some (be16 len))
    (hp : len.toNat = 1 + p.length) :
    ∃ t, QuietRun s [c] [t.dstate] t ∧ t.dstate = t.awaiting p ∧ t.Holds len c [] := by
  have hcap : s.spanLen.toNat < s.spanCap := by simp [hlen, State.spanCap]
  have hone : s.NoPayload ↔ p = [] := by
    rw [State.NoPayload, hreg, ← List.length_eq_zero_iff]
    omega
  refine ⟨_, .single hd (by decide) (exec_row_of_ok (.inl rfl) hd (ruleWaitCmd_of_lt c hcap)) rfl,
    if_congr hone rfl rfl, hreg, rfl, rfl, rfl, ?_, readRange_append c (by simp [hlen]) hspan⟩
  simp [hlen]

/-- One payload byte: what is held grows by it. -/
theorem quietRun_readData {s : State} {len : Word} {c b : Byte} {q rest : List Byte}
    (hd : s.dstate = .readData) (hs : s.Holds len c q)
    (hlen : len.toNat = 1 + (q ++ b :: rest).length) (hmax : len.toNat ≤ s.cfgMaxPay.toNat + 1) :
    ∃ t, QuietRun s [b] [t.dstate] t ∧ t.dstate = t.awaiting rest ∧ t.Holds len c (q ++ [b]) := by
  obtain ⟨hreg, hcmd, hidx, hq, hspanLen, hspan⟩ := hs
  rw [List.length_append, List.length_cons] at hlen
  have hcfg := s.cfgMaxPay.isLt
  have hidx' : (s.idx + 1#16).toNat = s.idx.toNat + 1 := toNat_add_one (by omega)
  have hspanLen' : (s.spanLen + 1#17).toNat = s.spanLen.toNat + 1 := toNat_add_one (by omega)
  have hrule := ruleReadData_of_lt (s := s) b (by unfold State.pbufCap; omega)
    (by unfold State.spanCap; omega)
  have hdone : (s.idx + 1#16).toNat + 1 = s.lenReg.toNat ↔ rest = [] := by
    rw [hidx', hidx, hreg, ← List.length_eq_zero_iff]
    omega
  have hbytes : (s.span.write s.spanLen.toNat b).readRange (s.spanLen + 1#17).toNat =
      some (be16 len ++ c :: (q ++ [b])) := readRange_append b (by omega) hspan
  rw [checkPayload_eq] at hrule
  refine ⟨_, .single hd (by decide) (exec_row_of_ok (.inl rfl) hd hrule) rfl, if_congr hdone rfl hd,
    hreg, hcmd, ?_, readRange_append b (by omega) hq, ?_, hbytes⟩
  · exact hidx'.trans (by simp [hidx])
  · exact hspanLen'.trans (by simp [hspanLen]; omega)

/-- The payload visits READ_DATA once per byte, the first time on the command byte. -/
theorem quietRun_payload {s : State} {len : Word} {c : Byte} {q : List Byte} (rest : List Byte)
    (hd : s.dstate = s.awaiting rest) (hs : s.Holds len c q)
    (hlen : len.toNat = 1 + (q ++ rest).length) (hmax : len.toNat ≤ s.cfgMaxPay.toNat + 1) :
    ∃ t ds, QuietRun s rest ds t ∧ t.dstate = t.afterPayload ∧ t.Holds len c (q ++ rest) ∧
      s.dstate :: ds = List.replicate rest.length DState.readData ++ [t.dstate] := by
  induction rest generalizing s q with
  | nil =>
    rw [List.append_nil]
    exact ⟨s, [], .nil s, hd, hs, rfl⟩
  | cons b rest ih =>
    obtain ⟨u, hu, hdu, hhold⟩ := quietRun_readData hd hs hlen hmax
    obtain ⟨-, -, hcfg, -⟩ := hu.sameConfig
    have happend : q ++ [b] ++ rest = q ++ b :: rest := by simp
    obtain ⟨t, ds, ht, hdt, hholdt, hds⟩ := ih hdu hhold (happend ▸ hlen) (hcfg ▸ hmax)
    refine ⟨t, u.dstate :: ds, hu.append ht, hdt, happend ▸ hholdt, ?_⟩
    rw [hds, hd]
    rfl

/-! ### The checksum and the trailer (R90 to R93) -/

theorem quietRun_crc1 {s : State} {len : Word} {c : Byte} {p : List Byte} (b : Byte)
    (hd : s.dstate = .waitCrc1) (hs : s.Holds len c p) :
    ∃ t, QuietRun s [b] [.waitCrc2] t ∧ t.dstate = .waitCrc2 ∧ hi t.rxCrc = b ∧ t.Holds len c p :=
  ⟨_, .single hd (by decide) (feedInWaitCrc1 b s _ (.inl rfl) hd) rfl, rfl, hi_join _ _, hs⟩

theorem quietRun_crc2 {s : State} {len : Word} {b c : Byte} {p : List Byte}
    (hd : s.dstate = .waitCrc2) (hs : s.Holds len c p) (hp : p.length ≤ s.cfgMaxPay.toNat)
    (hcrc : checksum (be16 len ++ c :: p) = join (hi s.rxCrc) b) :
    ∃ t, QuietRun s [b] [.waitEnd1] t ∧ t.dstate = .waitEnd1 ∧ t.Holds len c p := by
  have ⟨_, _, _, _, hlen, hspan⟩ := hs
  have h := feedInWaitCrc2 b s _ _ (.inl rfl) hd (by omega) hspan
  rw [if_pos hcrc] at h
  exact ⟨_, .single hd (by decide) h rfl, rfl, hs⟩

/-- The states in which a checksum field is received, where there is one. -/
def checksumStates (crcEn : Bool) : List DState := if crcEn then [.waitCrc1, .waitCrc2] else []

/-- The checksum field, or none, leads from the end of the payload to the trailer. -/
theorem quietRun_checksum {s : State} {len : Word} {c : Byte} {p : List Byte}
    (hd : s.dstate = s.afterPayload) (hs : s.Holds len c p) (hp : p.length ≤ s.cfgMaxPay.toNat) :
    ∃ t ds, QuietRun s (if s.cfgCrcEn then be16 (checksum (be16 len ++ c :: p)) else []) ds t ∧
      t.dstate = .waitEnd1 ∧ t.Holds len c p ∧
      s.dstate :: ds = checksumStates s.cfgCrcEn ++ [DState.waitEnd1] := by
  unfold State.afterPayload at hd
  cases hen : s.cfgCrcEn <;> rw [hen] at hd
  · exact ⟨s, [], .nil s, hd, hs, congrArg ([·]) hd⟩
  · obtain ⟨u, hu, hdu, hhi, hholdu⟩ := quietRun_crc1 (hi (checksum (be16 len ++ c :: p))) hd hs
    obtain ⟨-, -, hcfg, -⟩ := hu.sameConfig
    obtain ⟨t, ht, hdt, hholdt⟩ := quietRun_crc2 (b := lo (checksum (be16 len ++ c :: p))) hdu hholdu
      (hcfg ▸ hp) (by rw [hhi, join_hi_lo])
    exact ⟨t, _, hu.append ht, hdt, hholdt, congrArg (· :: _) hd⟩

theorem quietRun_trailerHi {s : State} {len : Word} {b c : Byte} {p : List Byte}
    (hd : s.dstate = .waitEnd1) (hs : s.Holds len c p) (hb : b = hi s.cfgTrailer) :
    ∃ t, QuietRun s [b] [.waitEnd2] t ∧ t.dstate = .waitEnd2 ∧ t.Holds len c p := by
  have h := feedInWaitEnd1 b s _ (.inl rfl) hd
  rw [if_pos hb] at h
  exact ⟨_, .single hd (by decide) h rfl, rfl, hs⟩

/-- The last byte of the trailer delivers what is held. -/
theorem exec_feed_trailerLo {s : State} {len : Word} {b c : Byte} {p : List Byte}
    (hd : s.dstate = .waitEnd2) (hb : b = lo s.cfgTrailer) (hs : s.Holds len c p)
    (hp : p.length ≤ s.cfgMaxPay.toNat) :
    ∃ t, exec (.feed b) s = .next t ∧ t.dstate = .waitHeader1 ∧
      t.events = s.events ++ [Event.packet c p] := by
  obtain ⟨-, rfl, hidx, hread, -⟩ := hs
  have hrule := ruleWaitEnd2_of_payload hb (hidx ▸ hp) hread
  exact ⟨_, exec_row_of_ok (.inl rfl) hd hrule, rfl, by simp⟩

end Sys2Proof.Machine
end

section
/-!
SUPPORT. A whole frame (R102), and the frame of ENCODE fed back to a decoder of the same configuration (R103).
-/

namespace Sys2Proof.Machine

/-! ### The states a frame visits and the packet it delivers (R102) -/

/-- A frame up to its last byte. -/
def frameInit (header trailer : Word) (crcEn : Bool) (c : Byte) (p : List Byte) : List Byte :=
  be16 header ++ be16 (lengthField p) ++ [c] ++ p ++
    (if crcEn then be16 (checksum (frameSpan c p)) else []) ++ [hi trailer]

theorem frame_eq_frameInit (header trailer : Word) (crcEn : Bool) (c : Byte) (p : List Byte) :
    frame header trailer crcEn c p = frameInit header trailer crcEn c p ++ [lo trailer] := by
  simp [frame, frameInit, frameSpan, be16]

/-- The states a frame takes the decoder through, up to its last byte (R102). -/
def frameStates (crcEn : Bool) (p : List Byte) : List DState :=
  [DState.waitHeader2, DState.waitLengthHi, DState.waitLengthLo, DState.waitCmd] ++
    List.replicate p.length DState.readData ++ checksumStates crcEn ++ [DState.waitEnd1, DState.waitEnd2]

/-- Header, length and command. -/
theorem quietRun_untilCmd {s : State} {c : Byte} {p : List Byte} (hd : s.dstate = .waitHeader1)
    (hmax : s.cfgMaxPay.toNat ≤ 65534) (hp : p.length ≤ s.cfgMaxPay.toNat) :
    ∃ t, QuietRun s (be16 s.cfgHeader ++ be16 (lengthField p) ++ [c])
        [.waitHeader2, .waitLengthHi, .waitLengthLo, .waitCmd, t.dstate] t ∧
      t.dstate = t.awaiting p ∧ t.Holds (lengthField p) c [] := by
  have hlen := lengthField_toNat p (by omega)
  obtain ⟨u, hu, hdu⟩ := quietRun_header hd
  obtain ⟨-, -, hcfg, -⟩ := hu.sameConfig
  obtain ⟨v, hv, hdv, hreg, hspanLen, hspan⟩ :=
    quietRun_length (len := lengthField p) hdu (by omega) (by rw [← hcfg]; omega)
  obtain ⟨t, ht, hdt, hholds⟩ := quietRun_cmd c hdv hreg hspanLen hspan hlen
  exact ⟨t, (hu.append hv).append ht, hdt, hholds⟩

/-- Payload, checksum field and the first byte of the trailer. -/
theorem quietRun_fromPayload {s : State} {c : Byte} {p : List Byte} (hd : s.dstate = s.awaiting p)
    (hs : s.Holds (lengthField p) c []) (hmax : s.cfgMaxPay.toNat ≤ 65534)
    (hp : p.length ≤ s.cfgMaxPay.toNat) :
    ∃ t ds, QuietRun s (p ++ (if s.cfgCrcEn then be16 (checksum (frameSpan c p)) else []) ++
        [hi s.cfgTrailer]) ds t ∧ t.dstate = .waitEnd2 ∧ t.Holds (lengthField p) c p ∧
      s.dstate :: ds = List.replicate p.length DState.readData ++
        checksumStates s.cfgCrcEn ++ [DState.waitEnd1, DState.waitEnd2] := by
  have hlen := lengthField_toNat p (by omega)
  obtain ⟨u, ds, hu, hdu, hholdu, hds⟩ := quietRun_payload p hd hs hlen (by omega)
  obtain ⟨-, htr, hcfg, hen⟩ := hu.sameConfig
  obtain ⟨v, es, hv, hdv, hholdv, hes⟩ := quietRun_checksum hdu hholdu (hcfg ▸ hp)
  rw [← hen] at hv hes
  obtain ⟨-, htr', -⟩ := hv.sameConfig
  obtain ⟨t, ht, hdt, hholdt⟩ :=
    quietRun_trailerHi hdv hholdv (congrArg hi (htr.trans htr'))
  refine ⟨t, _, (hu.append hv).append ht, hdt, hholdt, ?_⟩
  calc s.dstate :: (ds ++ es ++ [DState.waitEnd2])
      = (s.dstate :: ds) ++ es ++ [DState.waitEnd2] := rfl
    _ = List.replicate p.length DState.readData ++ (u.dstate :: es) ++ [DState.waitEnd2] := by simp [hds]
    _ = _ := by simp [hes]

/-- A frame but for its last byte leads to WAIT_END_2 with the command and the payload held. -/
theorem quietRun_frameInit {s : State} (c : Byte) {p : List Byte} (hd : s.dstate = .waitHeader1)
    (hmax : s.cfgMaxPay.toNat ≤ 65534) (hp : p.length ≤ s.cfgMaxPay.toNat) :
    ∃ t, QuietRun s (frameInit s.cfgHeader s.cfgTrailer s.cfgCrcEn c p)
        (frameStates s.cfgCrcEn p) t ∧
      t.dstate = .waitEnd2 ∧ t.Holds (lengthField p) c p := by
  obtain ⟨u, hu, hdu, hholdu⟩ := quietRun_untilCmd (c := c) hd hmax hp
  obtain ⟨-, htr, hcfg, hen⟩ := hu.sameConfig
  obtain ⟨t, ds, ht, hdt, hholdt, hds⟩ := quietRun_fromPayload hdu hholdu (hcfg ▸ hmax) (hcfg ▸ hp)
  rw [← htr, ← hen] at ht
  rw [← hen] at hds
  have hstates : frameStates s.cfgCrcEn p =
      [DState.waitHeader2, DState.waitLengthHi, DState.waitLengthLo, DState.waitCmd, u.dstate] ++ ds := by
    simp [frameStates, hds]
  have hbytes : frameInit s.cfgHeader s.cfgTrailer s.cfgCrcEn c p =
      (be16 s.cfgHeader ++ be16 (lengthField p) ++ [c]) ++
        (p ++ (if s.cfgCrcEn then be16 (checksum (frameSpan c p)) else []) ++ [hi s.cfgTrailer]) := by
    simp [frameInit]
  rw [hstates, hbytes]
  exact ⟨t, hu.append ht, hdt, hholdt⟩

/-- A whole frame: its bytes but the last are quiet, and the last one delivers the packet (R102). -/
theorem frame_delivers {s : State} (c : Byte) {p : List Byte} (hd : s.dstate = .waitHeader1)
    (hmax : s.cfgMaxPay.toNat ≤ 65534) (hp : p.length ≤ s.cfgMaxPay.toNat) :
    ∃ t u, QuietRun s (frameInit s.cfgHeader s.cfgTrailer s.cfgCrcEn c p)
        (frameStates s.cfgCrcEn p) t ∧
      exec (.feed (lo s.cfgTrailer)) t = .next u ∧ u.dstate = .waitHeader1 ∧
      u.events = s.events ++ [Event.packet c p] := by
  obtain ⟨t, ht, hdt, hholdt⟩ := quietRun_frameInit c hd hmax hp
  obtain ⟨-, htr, hcfg, -⟩ := ht.sameConfig
  obtain ⟨u, hu, hdu, hev⟩ := exec_feed_trailerLo hdt (congrArg lo htr) hholdt (hcfg ▸ hp)
  exact ⟨t, u, ht, hu, hdu, ht.events_eq ▸ hev⟩

/-- Fed a whole frame, a decoder in WAIT_HEADER_1 emits its packet alone and ends there (R102, R103). -/
theorem feedAll_frame {s : State} (c : Byte) {p : List Byte} (hd : s.dstate = .waitHeader1)
    (hmax : s.cfgMaxPay.toNat ≤ 65534) (hp : p.length ≤ s.cfgMaxPay.toNat) :
    ∃ t, feedAll (frame s.cfgHeader s.cfgTrailer s.cfgCrcEn c p) s = .next t ∧
      t.dstate = .waitHeader1 ∧ t.events = s.events ++ [Event.packet c p] := by
  obtain ⟨t, u, ht, hu, hdu, hev⟩ := frame_delivers c hd hmax hp
  refine ⟨u.withRequests [], ?_, hdu, hev⟩
  rw [frame_eq_frameInit, ht.feedAll_append, feedAll_cons [] hu, feedAll_nil]

/-- Settles O50: the quiet part of the frame visits the states up to WAIT_END_2, the last byte ends in
WAIT_HEADER_1. -/
theorem frameVisitsTheStatesInOrder : Obligations.FrameVisitsTheStatesInOrder := by
  intro c p f s hmax hp hd hf
  obtain ⟨t, u, ht, hu, hdu, -⟩ := frame_delivers c hd hmax hp
  obtain ⟨v, hv, hdv, hev⟩ := feedAll_frame c hd hmax hp
  rw [← hf] at hv
  rw [frame_eq_frameInit] at hf
  refine ⟨?_, ⟨t.withRequests [], ?_, ht.events_eq⟩, v, hv, hev, hdv⟩
  · rw [hf, ht.visited_append, visited_cons [] hu, hdu]
    simp [frameStates, checksumStates, visited]
  · rw [hf, List.dropLast_concat, ht.feedAll_eq]

/-! ### ENCODE's frame fed back (R103) -/

/-- What ENCODE answers with as a frame is the frame of a payload that fits. -/
theorem exec_encode_txFrame {s t : State} {c : Byte} {p f : List Byte}
    (h : exec (.encode c p) s = .next t)
    (hout : t.outputs = s.outputs ++ [Output.response (.txFrame f)]) :
    p.length ≤ s.cfgMaxPay.toNat ∧ f = frame s.cfgHeader s.cfgTrailer s.cfgCrcEn c p := by
  obtain ⟨u, hu, huout, -⟩ := exec_encode_response c p s
  obtain rfl : u = t := Host.Outcome.next.inj (hu.symm.trans h)
  have hresp : s.encodeResponse c p = .txFrame f := by simpa [huout] using hout
  obtain ⟨hfits, hf⟩ := encodeResponse_eq_txFrame_iff.1 hresp
  exact ⟨Nat.not_lt.1 hfits, hf⟩

theorem frame_take_two (header trailer : Word) (crcEn : Bool) (c : Byte) (p : List Byte) :
    (frame header trailer crcEn c p).take 2 = [hi header, lo header] := rfl

theorem frame_take_one (header trailer : Word) (crcEn : Bool) (c : Byte) (p : List Byte) :
    (frame header trailer crcEn c p).take 1 = [hi header] := rfl

/-- Settles O51: in WAIT_HEADER_1 the frame is delivered; in WAIT_HEADER_2 its first byte stands where
`header_lo` is expected. -/
theorem encodedFrameRoundTrips : Obligations.EncodedFrameRoundTrips := by
  intro c p f s s0 t0 hmax hcfg h hout
  obtain ⟨hp, rfl⟩ := exec_encode_txFrame h hout
  obtain ⟨hheader, htrailer, hpay, hcrc⟩ := hcfg
  rw [hpay] at hp
  rw [hheader, htrailer, hcrc]
  refine ⟨fun hd => feedAll_frame c hd hmax hp, fun hd hne => ?_, fun hd heq => ?_⟩
  · obtain ⟨t, ht, hdt⟩ := quietRun_headerAbort hd hne
    exact ⟨t.withRequests [], ht.feedAll_eq, hdt, ht.events_eq⟩
  · obtain ⟨u, hu, hdu⟩ := quietRun_headerLo hd heq
    obtain ⟨t, ht, hdt, hhi, -⟩ := quietRun_lengthHi (lo s.cfgHeader) hdu
    exact ⟨t.withRequests [], (hu.append ht).feedAll_eq, hdt, hhi⟩

end Sys2Proof.Machine
end

section
/-!
SUPPORT. RESET (43_control.md): the return to header search (R83) and one response, and nothing more (R104, R105).
-/

namespace Sys2Proof.Machine

/-- R104: RESET is HUNT, answered with `Ack`. -/
theorem exec_reset (s : State) : exec .reset s = .next (s.hunt.respond .ack) := rfl

/-- Settles O18: HUNT writes `dstate` and the five scalar registers, and `respond` only appends to the outputs. -/
theorem resetForcesInitialContext : Obligations.ResetForcesInitialContext := by
  intro s
  rw [exec_reset, State.respond, State.hunt]

end Sys2Proof.Machine
end

section
/-!
SUPPORT. The one reported error (60_exceptions.md): PayloadTooLong is ENCODE's answer to a payload that is too
long, and no other operation's (R107, R108, R112).
-/

namespace Sys2Proof.Machine

/-- The last output an operation appends is its response, so equal outputs hold equal responses (R3). -/
theorem response_eq_of_respond_outputs {u : State} {r q : Response} {out : List Output}
    (h : (u.respond r).outputs = out ++ [Output.response q]) : r = q :=
  Output.response.inj (List.singleton_inj.1 (List.append_inj_right' h rfl))

/-- Settles O48: the response of every case of an operation but ENCODE's of too long a payload is `Ack`, a frame
or a checksum. -/
theorem onlyLongPayloadIsReported : Obligations.OnlyLongPayloadIsReported := by
  intro i s t h
  constructor
  · intro hout
    rcases exec_next_cases h with ⟨b, u, -, -, rfl⟩ | ⟨-, rfl⟩ | ⟨c, p, hi, hlong, -⟩ |
      ⟨c, p, f, -, -, -, rfl⟩ | ⟨d, -, rfl⟩
    case inr.inr.inl => exact ⟨c, p, eq_encode_of_requestForm hi, hlong⟩
    all_goals cases response_eq_of_respond_outputs hout
  · rintro ⟨c, p, rfl, hlong⟩
    obtain rfl := Host.Outcome.next.inj ((execEncode_of_tooLong hlong).symm.trans h)
    rfl

end Sys2Proof.Machine
end

section
/-!
SUPPORT. The checksum tells two sequences apart that differ in one byte (R69, R70, R135): a round loses nothing,
because the polynomial's bit 0 records the bit that the shift drops.
-/

namespace Sys2Proof.Machine

/-- A round moves bit 15 to bit 0, where the shift leaves a zero and the polynomial has a one. -/
theorem crcRound_getLsbD_zero (acc : Word) : (crcRound acc).getLsbD 0 = acc.getLsbD 15 := by
  unfold crcRound
  cases h : acc.getLsbD 15 <;> simp [crcPoly]

/-- Every other bit of a round is the bit below it, changed only as bit 15 says. -/
theorem crcRound_getLsbD_succ (acc : Word) {i : Nat} (hlt : i < 15) :
    (crcRound acc).getLsbD (i + 1) = (acc.getLsbD i ^^ (acc.getLsbD 15 && crcPoly.getLsbD (i + 1))) := by
  have hbit : i + 1 < 16 := by omega
  have hshift : (acc <<< 1).getLsbD (i + 1) = acc.getLsbD i := by
    rw [BitVec.getLsbD_shiftLeft]
    simp [hbit]
  unfold crcRound
  cases acc.getLsbD 15 <;> simp [hshift]

theorem crcRound_injective : Function.Injective crcRound := by
  intro u v h
  have htop : u.getLsbD 15 = v.getLsbD 15 := by
    rw [← crcRound_getLsbD_zero, ← crcRound_getLsbD_zero, h]
  refine BitVec.eq_of_getLsbD_eq fun i h16 => ?_
  by_cases hlast : i = 15
  · rw [hlast, htop]
  · have hlt : i < 15 := by omega
    have hbit : (crcRound u).getLsbD (i + 1) = (crcRound v).getLsbD (i + 1) := by rw [h]
    rw [crcRound_getLsbD_succ u hlt, crcRound_getLsbD_succ v hlt, htop] at hbit
    exact Bool.xor_left_inj.1 hbit

theorem crcRounds_injective (n : Nat) : Function.Injective (crcRounds n) := by
  induction n with
  | zero => exact fun _ _ h => h
  | succ n ih => exact fun _ _ h => crcRound_injective (ih h)

/-- Different accumulators stay different under the same byte. -/
theorem crcStep_left_injective (b : Byte) : Function.Injective (crcStep · b) :=
  fun _ _ h => (BitVec.xor_left_inj _).1 (crcRounds_injective 8 h)

/-- Different bytes take one accumulator to different ones. -/
theorem crcStep_right_injective (acc : Word) : Function.Injective (crcStep acc) := by
  intro a b h
  have hshift : a.setWidth 16 <<< 8 = b.setWidth 16 <<< 8 :=
    (BitVec.xor_right_inj _).1 (crcRounds_injective 8 h)
  have hnat := congrArg BitVec.toNat hshift
  rw [byte_shiftLeft_toNat, byte_shiftLeft_toNat] at hnat
  exact BitVec.eq_of_toNat_eq (Nat.eq_of_mul_eq_mul_right (by decide) hnat)

theorem foldl_crcStep_injective (d : List Byte) : Function.Injective (d.foldl crcStep) := by
  induction d with
  | nil => exact fun _ _ h => h
  | cons b d ih => exact fun _ _ h => crcStep_left_injective b (ih h)

/-- Settles O38: the accumulators differ after the changed byte, and no byte after it makes them equal again. -/
theorem oneByteChangeChangesChecksum : Obligations.OneByteChangeChangesChecksum := by
  intro x y a b hab h
  rw [checksum_append, checksum_append] at h
  exact hab (crcStep_right_injective _ (foldl_crcStep_injective y h))

end Sys2Proof.Machine
end

section
/-!
SUPPORT. A core back in WAIT_HEADER_1 (70_reset_and_hazards.md, R126, R132): it differs from a new one in stale
bytes only, and its first five FEEDs leave PBUF.
-/

namespace Sys2Proof.Machine

/-! ### As good as new (R126) -/

/-- Where the steps of two related states agree, their runs do. -/
theorem run_agree {M : Host.Core} {R : M.State → M.State → Prop}
    (hstep : ∀ s u, R s u → OutcomesAgree R (M.step s) (M.step u)) (k : Nat) {s u : M.State}
    (h : R s u) : OutcomesAgree R (M.run k s) (M.run k u) := by
  induction k generalizing s u with
  | zero => exact h
  | succ k ih =>
    have hagree := hstep s u h
    rw [Host.Core.run, Host.Core.run]
    cases hs : M.step s <;> cases hu : M.step u <;> rw [hs, hu] at hagree
    case next.next => exact ih hagree
    case fault.fault | refused.refused => exact hagree
    all_goals exact hagree.elim

theorem construct_dstate {p : Params} {n : State} (h : construct p = some n) :
    n.dstate = .waitHeader1 := by
  by_cases hp : p.Legal
  · obtain rfl := Option.some.inj ((construct_of_legal hp).symm.trans h)
    rfl
  · exact nomatch (construct_of_illegal hp).symm.trans h

/-- In WAIT_HEADER_1 the registers are cleared, so every buffer byte is stale (R27, R29). -/
theorem sameButStale_of_waitHeader1 {s u : State} (hcfg : SameConfig s u) (hs : s.Inv) (hu : u.Inv)
    (hds : s.dstate = .waitHeader1) (hdu : u.dstate = .waitHeader1) (hreq : s.requests = u.requests)
    (hout : s.outputs = u.outputs) : SameButStale s u := by
  obtain ⟨hlen, hcmd, hidx, hrx, hspan⟩ := inv_row hs hds
  obtain ⟨hlen', hcmd', hidx', hrx', hspan'⟩ := inv_row hu hdu
  obtain ⟨-, hacc, -⟩ := hs
  obtain ⟨-, hacc', -⟩ := hu
  refine ⟨hcfg, ⟨hds.trans hdu.symm, hlen.trans hlen'.symm, hcmd.trans hcmd'.symm,
    hidx.trans hidx'.symm, hrx.trans hrx'.symm, hspan.trans hspan'.symm⟩, hacc.trans hacc'.symm,
    hreq, hout, ?_, ?_⟩
  · rw [hidx]
    exact AgreeBelow.zero _ _
  · rw [hspan]
    exact AgreeBelow.zero _ _

/-- Settles O19: both cores are in WAIT_HEADER_1 in the invariant, and runs keep their likeness. -/
theorem backInHuntBehavesAsNew : Obligations.BackInHuntBehavesAsNew := by
  intro p n u rs k hn hcfg hu hdu
  have hinv := constructionMeetsInvariant p n hn
  have hdn := construct_dstate hn
  exact run_agree (M := Sys2Proof.core) staleBytesAreUnobservable k
    (sameButStale_of_waitHeader1 hcfg hu hinv hdu hdn rfl rfl)

/-! ### The payload buffer after a delivery (R132) -/

/-- The least number of FEEDs that lead from WAIT_HEADER_1 to a decoder state, where it is below five; five for
READ_DATA and the states after it. -/
def DState.depth : DState → Nat
  | .waitHeader1 => 0
  | .waitHeader2 => 1
  | .waitLengthHi => 2
  | .waitLengthLo => 3
  | .waitCmd => 4
  | .readData | .waitCrc1 | .waitCrc2 | .waitEnd1 | .waitEnd2 => 5

theorem DState.depth_le_five (d : DState) : d.depth ≤ 5 := by cases d <;> decide

/-- One rule leads one state deeper at most. -/
theorem ruleOf_depth {d : DState} {b : Byte} {s t : State} (hd : s.dstate = d)
    (h : ruleOf d b s = .ok t) : t.dstate.depth ≤ d.depth + 1 := by
  cases d with
  | waitHeader1 =>
    obtain rfl := Except.ok.inj h
    split
    · exact Nat.le_refl 1
    · simp [hd, DState.depth]
  | waitHeader2 =>
    obtain rfl := Except.ok.inj h
    split
    · exact Nat.le_refl 2
    · exact Nat.zero_le 2
  | waitLengthHi =>
    obtain rfl := Except.ok.inj h
    exact Nat.le_refl 3
  | waitLengthLo =>
    obtain ⟨-, rfl⟩ := ruleWaitLengthLo_ok h
    rcases checkLength_cases _ with ⟨-, ht⟩ | ⟨-, ht⟩ <;> rw [ht]
    · exact Nat.le_refl 4
    · exact Nat.zero_le 4
  | waitCmd => exact t.dstate.depth_le_five
  | readData | waitCrc1 | waitCrc2 | waitEnd1 | waitEnd2 =>
    exact t.dstate.depth_le_five.trans (Nat.le_succ 5)

theorem pbuf_ite {c : Prop} [Decidable c] {m : Memory} {t u : State} (ht : t.pbuf = m)
    (hu : u.pbuf = m) : (if c then t else u).pbuf = m := by
  split <;> assumption

/-- Only READ_DATA writes PBUF (R89). -/
theorem ruleOf_pbuf {d : DState} {b : Byte} {s t : State} (hd : d ≠ .readData)
    (h : ruleOf d b s = .ok t) : t.pbuf = s.pbuf := by
  cases d with
  | readData => exact absurd rfl hd
  | waitHeader1 | waitHeader2 | waitEnd1 =>
    obtain rfl := Except.ok.inj h
    exact pbuf_ite rfl rfl
  | waitLengthHi | waitCrc1 =>
    obtain rfl := Except.ok.inj h
    rfl
  | waitLengthLo =>
    obtain ⟨-, rfl⟩ := ruleWaitLengthLo_ok h
    exact pbuf_ite rfl rfl
  | waitCmd =>
    obtain ⟨-, rfl⟩ := ruleWaitCmd_ok h
    rfl
  | waitCrc2 =>
    obtain ⟨_, -, -, rfl⟩ := ruleWaitCrc2_ok h
    exact pbuf_ite rfl rfl
  | waitEnd2 => rcases ruleWaitEnd2_ok h with ⟨-, p, -, -, rfl⟩ | ⟨-, rfl⟩ <;> rfl

theorem exec_feed_depth {b : Byte} {s t : State} (h : exec (.feed b) s = .next t) :
    t.dstate.depth ≤ s.dstate.depth + 1 := by
  obtain ⟨u, hu, rfl⟩ := finishFeed_next.1 h
  exact (ruleOf_depth rfl hu : u.dstate.depth ≤ s.dstate.depth + 1)

theorem exec_feed_pbuf {b : Byte} {s t : State} (hd : s.dstate ≠ .readData)
    (h : exec (.feed b) s = .next t) : t.pbuf = s.pbuf := by
  obtain ⟨u, hu, rfl⟩ := finishFeed_next.1 h
  exact (ruleOf_pbuf hd hu : u.pbuf = s.pbuf)

/-- As many FEEDs as lead to depth five at most leave PBUF: none of them begins in READ_DATA. -/
theorem feedAll_pbuf (bytes : List Byte) {s : State} (hs : s.Inv)
    (h : s.dstate.depth + bytes.length ≤ 5) : ∃ t, feedAll bytes s = .next t ∧ t.pbuf = s.pbuf := by
  induction bytes generalizing s with
  | nil => exact ⟨_, feedAll_nil s, rfl⟩
  | cons b bytes ih =>
    rw [List.length_cons] at h
    obtain ⟨u, hu, hinv, -⟩ := feedIsTotal b s _ hs (.inl rfl)
    have hdepth := exec_feed_depth hu
    have hd : s.dstate ≠ .readData := fun hd => by
      rw [hd, DState.depth] at h
      omega
    obtain ⟨t, ht, hpbuf⟩ := ih hinv (by omega)
    exact ⟨t, (feedAll_cons bytes hu).trans ht, hpbuf.trans (exec_feed_pbuf hd hu)⟩

/-- Settles O56: WAIT_HEADER_1 has depth zero. -/
theorem fiveFeedsLeaveThePayload : Obligations.FiveFeedsLeaveThePayload := by
  intro bytes s hs hd hlen
  obtain ⟨t, ht, hpbuf⟩ := feedAll_pbuf bytes hs (by rw [hd, DState.depth]; omega)
  exact ⟨t, ht, fun a => by rw [hpbuf]⟩

end Sys2Proof.Machine
end

section
/-!
SUPPORT. Disturbed byte streams (70_reset_and_hazards.md, R133 to R135): noise, frames that follow an abort with no
gap, and frames with a changed byte.
-/

namespace Sys2Proof.Machine

/-! ### Noise (R134) -/

theorem quietRun_noiseByte {s : State} {b : Byte} (hd : s.dstate = .waitHeader1)
    (hb : b ≠ hi s.cfgHeader) :
    ∃ t, QuietRun s [b] [.waitHeader1] t ∧ t.dstate = .waitHeader1 := by
  have h := feedInWaitHeader1 b s _ (.inl rfl) hd
  rw [if_neg hb] at h
  exact ⟨_, .single hd (by decide) h rfl, rfl⟩

/-- Bytes that are not `header_hi` leave WAIT_HEADER_1. -/
theorem quietRun_noise {s : State} {noise : List Byte} (hd : s.dstate = .waitHeader1)
    (hnoise : ∀ x ∈ noise, x ≠ hi s.cfgHeader) :
    ∃ t ds, QuietRun s noise ds t ∧ t.dstate = .waitHeader1 := by
  induction noise generalizing s with
  | nil => exact ⟨s, [], .nil s, hd⟩
  | cons b noise ih =>
    obtain ⟨hb, hrest⟩ := List.forall_mem_cons.1 hnoise
    obtain ⟨u, hu, hdu⟩ := quietRun_noiseByte hd hb
    obtain ⟨hheader, -⟩ := hu.sameConfig
    obtain ⟨t, ds, ht, hdt⟩ := ih hdu (hheader ▸ hrest)
    exact ⟨t, _, hu.append ht, hdt⟩

/-- Settles O52: after the noise the decoder is in WAIT_HEADER_1 with its configuration, where a frame is
delivered. -/
theorem noiseBeforeAFrameIsHarmless : Obligations.NoiseBeforeAFrameIsHarmless := by
  intro noise c p s hmax hd hnoise hp
  obtain ⟨t, ds, ht, hdt⟩ := quietRun_noise hd hnoise
  refine ⟨⟨t.withRequests [], ht.feedAll_eq, hdt, ht.events_eq⟩, ?_⟩
  obtain ⟨hheader, htrailer, hcfg, hen⟩ := ht.sameConfig
  rw [ht.feedAll_append, ← ht.events_eq, hheader, htrailer, hen]
  exact feedAll_frame c hdt (hcfg ▸ hmax) (hcfg ▸ hp)

/-! ### Frames with no gap after an abort (R133) -/

/-- Where the last byte of a frame is its first one, a frame that begins in WAIT_HEADER_2 is lost: its first byte
aborts, the others are noise, and its last byte stands for the header of the next frame. -/
theorem quietRun_lostFrame {s : State} {b : Byte} {body : List Byte} (hd : s.dstate = .waitHeader2)
    (hb : b = hi s.cfgHeader) (hne : b ≠ lo s.cfgHeader) (hbody : ∀ x ∈ body, x ≠ b) :
    ∃ t ds, QuietRun s (b :: body ++ [b]) ds t ∧ t.dstate = .waitHeader2 := by
  obtain ⟨u, hu, hdu⟩ := quietRun_headerAbort hd hne
  obtain ⟨hheader, -⟩ := hu.sameConfig
  rw [hheader] at hb
  obtain ⟨v, ds, hv, hdv⟩ := quietRun_noise hdu (hb ▸ hbody)
  obtain ⟨hheader', -⟩ := hv.sameConfig
  obtain ⟨t, ht, hdt⟩ := quietRun_headerHi hdv (hb.trans (congrArg hi hheader'))
  exact ⟨t, _, (hu.append hv).append ht, hdt⟩

theorem quietRun_lostFrames {s : State} {b : Byte} {bodies : List (List Byte)}
    (hd : s.dstate = .waitHeader2) (hb : b = hi s.cfgHeader) (hne : b ≠ lo s.cfgHeader)
    (hbodies : ∀ body ∈ bodies, ∀ x ∈ body, x ≠ b) :
    ∃ t ds, QuietRun s (bodies.flatMap fun body => b :: body ++ [b]) ds t ∧
      t.dstate = .waitHeader2 := by
  induction bodies generalizing s with
  | nil => exact ⟨s, [], .nil s, hd⟩
  | cons body bodies ih =>
    obtain ⟨hbody, hrest⟩ := List.forall_mem_cons.1 hbodies
    obtain ⟨u, ds, hu, hdu⟩ := quietRun_lostFrame hd hb hne hbody
    obtain ⟨hheader, -⟩ := hu.sameConfig
    rw [hheader] at hb hne
    obtain ⟨t, es, ht, hdt⟩ := ih hdu hb hne hrest
    exact ⟨t, _, hu.append ht, hdt⟩

/-- Settles O55: each frame is lost in turn, and a gap byte aborts the header that the last one seemed to begin. -/
theorem gapFreeFramesAreLostAfterAnAbort : Obligations.GapFreeFramesAreLostAfterAnAbort := by
  intro bodies s hd hne htrailer hbodies
  rw [htrailer]
  obtain ⟨t, ds, ht, hdt⟩ := quietRun_lostFrames hd rfl hne hbodies
  refine ⟨⟨t.withRequests [], ht.feedAll_eq, hdt, ht.events_eq⟩, fun g hg => ?_⟩
  obtain ⟨hheader, -⟩ := ht.sameConfig
  obtain ⟨u, hu, hdu⟩ := quietRun_headerAbort hdt (hheader ▸ hg)
  have hrun := ht.append hu
  exact ⟨u.withRequests [], hrun.feedAll_eq, hdu, hrun.events_eq⟩

/-! ### A changed command or payload byte (R135) -/

/-- A checksum field other than the checksum of what is held aborts (R91). -/
theorem quietRun_wrongChecksum {s : State} {len v : Word} {c : Byte} {p : List Byte}
    (hd : s.dstate = .waitCrc1) (hs : s.Holds len c p) (hp : p.length ≤ s.cfgMaxPay.toNat)
    (hv : checksum (be16 len ++ c :: p) ≠ v) :
    ∃ t, QuietRun s (be16 v) [.waitCrc2, .waitHeader1] t ∧ t.dstate = .waitHeader1 := by
  obtain ⟨u, hu, hdu, hhi, -, -, -, -, hlen, hspan⟩ := quietRun_crc1 (hi v) hd hs
  obtain ⟨-, -, hcfg, -⟩ := hu.sameConfig
  have h := feedInWaitCrc2 (lo v) u _ _ (.inl rfl) hdu (by rw [← hcfg]; omega) hspan
  rw [hhi, join_hi_lo, if_neg hv] at h
  exact ⟨_, hu.append (.single hdu (by decide) h rfl), rfl⟩

/-- Whatever two bytes follow an abort, they deliver nothing. -/
theorem quietRun_twoBytes {s : State} (b b' : Byte) (hd : s.dstate = .waitHeader1) :
    ∃ t ds, QuietRun s [b, b'] ds t := by
  by_cases hb : b = hi s.cfgHeader
  · obtain ⟨u, hu, hdu⟩ := quietRun_headerHi hd hb
    exact ⟨_, _, hu.append (.single hdu (by decide) (feedInWaitHeader2 b' u _ (.inl rfl) hdu) rfl)⟩
  · obtain ⟨u, hu, hdu⟩ := quietRun_noiseByte hd hb
    exact ⟨_, _, hu.append (.single hdu (by decide) (feedInWaitHeader1 b' u _ (.inl rfl) hdu) rfl)⟩

/-- Header, length, command and payload lead to the end of the payload, with all of them held. -/
theorem quietRun_untilPayloadEnd {s : State} (c : Byte) {p : List Byte} (hd : s.dstate = .waitHeader1)
    (hmax : s.cfgMaxPay.toNat ≤ 65534) (hp : p.length ≤ s.cfgMaxPay.toNat) :
    ∃ t ds, QuietRun s (be16 s.cfgHeader ++ be16 (lengthField p) ++ c :: p) ds t ∧
      t.dstate = t.afterPayload ∧ t.Holds (lengthField p) c p := by
  have hlen := lengthField_toNat p (by omega)
  obtain ⟨u, hu, hdu, hholdu⟩ := quietRun_untilCmd (c := c) hd hmax hp
  obtain ⟨-, -, hcfg, -⟩ := hu.sameConfig
  obtain ⟨t, ds, ht, hdt, hholdt, -⟩ := quietRun_payload p hdu hholdu hlen (by rw [← hcfg]; omega)
  have hrun := hu.append ht
  rw [List.append_assoc _ [c] p] at hrun
  exact ⟨t, _, hrun, hdt, hholdt⟩

/-- With the checksum enabled, a frame whose checksum field is wrong for its length, command and payload delivers
nothing. -/
theorem quietRun_frameOfWrongChecksum {s : State} {c : Byte} {p : List Byte} {v : Word}
    (hd : s.dstate = .waitHeader1) (hen : s.cfgCrcEn = true) (hmax : s.cfgMaxPay.toNat ≤ 65534)
    (hp : p.length ≤ s.cfgMaxPay.toNat) (hv : checksum (frameSpan c p) ≠ v) (b b' : Byte) :
    ∃ t ds, QuietRun s (be16 s.cfgHeader ++ be16 (lengthField p) ++ c :: p ++ be16 v ++ [b, b']) ds t := by
  obtain ⟨u, ds, hu, hdu, hholdu⟩ := quietRun_untilPayloadEnd c hd hmax hp
  obtain ⟨-, -, hcfg, hen'⟩ := hu.sameConfig
  have hdu' : u.dstate = .waitCrc1 := by rw [hdu, State.afterPayload, ← hen', if_pos hen]
  obtain ⟨w, hw, hdw⟩ := quietRun_wrongChecksum hdu' hholdu (hcfg ▸ hp) hv
  obtain ⟨t, es, ht⟩ := quietRun_twoBytes b b' hdw
  exact ⟨t, _, (hu.append hw).append ht⟩

/-- Settles O53: the changed bytes are a command and a payload of the same length, and the frame's checksum is not
theirs. -/
theorem oneByteCorruptionIsNeverDelivered : Obligations.OneByteCorruptionIsNeverDelivered := by
  intro c a b p x y s hmax hen hd hp hsplit hab
  obtain ⟨c', p', hchanged⟩ : ∃ c' p', x ++ b :: y = c' :: p' := List.exists_cons_of_ne_nil (by simp)
  have hlen : p'.length = p.length := by
    have h := congrArg List.length hsplit
    have h' := congrArg List.length hchanged
    simp only [List.length_append, List.length_cons] at h h'
    omega
  have hfield : lengthField p' = lengthField p := by rw [lengthField, hlen, lengthField]
  have hcrc : checksum (frameSpan c' p') ≠ checksum (frameSpan c p) := by
    rw [frameSpan, frameSpan, hfield, hsplit, ← hchanged, ← List.append_assoc, ← List.append_assoc]
    exact oneByteChangeChangesChecksum _ y b a hab.symm
  rw [hchanged, ← hfield]
  obtain ⟨t, ds, ht⟩ := quietRun_frameOfWrongChecksum hd hen hmax (hlen ▸ hp) hcrc
    (hi s.cfgTrailer) (lo s.cfgTrailer)
  exact ⟨t.withRequests [], ht.feedAll_eq, ht.events_eq⟩

/-! ### A changed length field (90_conflicts.md C5) -/

/-- A frame followed by other bytes is delivered, and the others are fed in WAIT_HEADER_1. -/
theorem feedAll_frame_append {s : State} (c : Byte) {p : List Byte} (hd : s.dstate = .waitHeader1)
    (hmax : s.cfgMaxPay.toNat ≤ 65534) (hp : p.length ≤ s.cfgMaxPay.toNat) (rest : List Byte) :
    ∃ u, feedAll (frame s.cfgHeader s.cfgTrailer s.cfgCrcEn c p ++ rest) s = feedAll rest u ∧
      u.dstate = .waitHeader1 ∧ u.cfgHeader = s.cfgHeader ∧
      u.events = s.events ++ [Event.packet c p] := by
  obtain ⟨t, u, ht, hu, hdu, hev⟩ := frame_delivers c hd hmax hp
  obtain ⟨hheader, -⟩ := ht.sameConfig
  obtain ⟨hheader', -⟩ := exec_sameConfig hu
  refine ⟨u, ?_, hdu, (hheader.trans hheader').symm, hev⟩
  rw [frame_eq_frameInit, List.append_assoc, ht.feedAll_append]
  exact feedAll_cons rest hu

/-- With the length bit flipped the vector's first nine bytes are a frame with no payload: the payload sent holds the
checksum of the shortened span and a trailer (90_conflicts.md C5). -/
theorem frame_of_corruptedLength :
    frame Config.defaultHeader Config.defaultTrailer true 0x10#8 [] =
      [0xAA#8, 0x55#8, 0x00#8, 0x01#8, 0x10#8, 0xED#8, 0x9C#8, 0x55#8, 0xAA#8] := by decide +kernel

/-- Settles O54: the vector is that frame, seven bytes of noise, and the byte `header_hi`. -/
theorem lengthCorruptionCanBeDelivered : Obligations.LengthCorruptionCanBeDelivered := by
  intro s hs
  obtain rfl : State.reset = s := Option.some.inj (resetIsDefaultConstruction.1.symm.trans hs)
  obtain ⟨u, hu, hdu, hheader, hev⟩ := feedAll_frame_append (s := State.reset) 0x10#8 (p := []) rfl
    (by decide) (by decide)
    [0x11#8, 0x22#8, 0x33#8, 0x44#8, 0xC8#8, 0x27#8, 0x55#8, 0xAA#8]
  have hhi : hi u.cfgHeader = 0xAA#8 := congrArg hi hheader
  obtain ⟨v, ds, hv, hdv⟩ := quietRun_noise
    (noise := [0x11#8, 0x22#8, 0x33#8, 0x44#8, 0xC8#8, 0x27#8, 0x55#8]) hdu (by rw [hhi]; decide)
  obtain ⟨hheader', -⟩ := hv.sameConfig
  obtain ⟨t, ht, hdt⟩ := quietRun_headerHi (b := 0xAA#8) hdv (hhi.symm.trans (congrArg hi hheader'))
  have hrun := hv.append ht
  have hbytes : feedAll _ State.reset = .next (t.withRequests []) := hu.trans hrun.feedAll_eq
  have hframe : frame State.reset.cfgHeader State.reset.cfgTrailer State.reset.cfgCrcEn 0x10#8 [] = _ :=
    frame_of_corruptedLength
  rw [hframe] at hbytes
  exact ⟨t.withRequests [], hbytes, hrun.events_eq.trans hev, hdt⟩

end Sys2Proof.Machine
end
